-- ==== Sys2Proof/Word.lean ====
section
/-! DEFINITION. The word types of the block: a byte, the parse-state code, the receive decode key and the
host operation word (00_scope R12, R13; 30_encoding R67 to R69). -/

namespace Sys2Proof

/-- A buffer byte, TYPE, LENGTH, a checksum (00_scope R12). -/
abbrev Byte := BitVec 8

/-- The 3-bit parse-state code (30_encoding R67). -/
abbrev StateCode := BitVec 3

/-- The 11-bit receive decode key (30_encoding R68). -/
abbrev RxKey := BitVec 11

/-- The 12-bit host operation word (30_encoding R69). -/
abbrev OpWord := BitVec 12

end Sys2Proof
end

