-- ==== Sys2Proof/Config.lean ====
section
/-! DEFINITION. The constants the spec fixes (00_scope R11), the reference sizing (R8), the codes of the parse
states (30_encoding R67) and what the model fixes where the spec leaves it open. -/

namespace Sys2Proof.Config

/-- PREAMBLE1 (00_scope R11). -/
def preamble1 : Byte := 0xF0#8
/-- PREAMBLE2 (00_scope R11). -/
def preamble2 : Byte := 0xCA#8
/-- POSTAMBLE1 (00_scope R11). -/
def postamble1 : Byte := 0x53#8
/-- POSTAMBLE2 (00_scope R11). -/
def postamble2 : Byte := 0x0F#8
/-- TYPE_SENTINEL (00_scope R11): only the power-on value of PKT_TYPE uses it (30_encoding R73). -/
def typeSentinel : Byte := 0xFF#8
/-- GET_UPTIME, the one type code the source names (30_encoding R65). -/
def getUptime : Byte := 0x00#8

/-- TYPE_OFFSET (00_scope R11). -/
def typeOffset : Nat := 2
/-- DATA_LENGTH_OFFSET (00_scope R11). -/
def dataLengthOffset : Nat := 3
/-- DATA_START_OFFSET (00_scope R11). -/
def dataStartOffset : Nat := 4
/-- FRAME_OVERHEAD (00_scope R11). -/
def frameOverhead : Nat := 7

/-- The reference value of CAPACITY (00_scope R8). DESIGN CHOICE, safe (log entry 1): `State.reset` has it;
every other CAPACITY is a state with another value in the field `capacity`. -/
def referenceCapacity : Nat := 32

/-- What a buffer byte reads as that nothing has written since power-on. The spec leaves it unspecified
(70_reset R142). DESIGN CHOICE, unsafe (log entry 3), sanctioned by 10_state R35. -/
def bufPowerOn : Byte := 0x00#8

/-- SearchPreamble1, code 0 (30_encoding R67). -/
def sp1 : StateCode := 0#3
/-- SearchPreamble2, code 1. -/
def sp2 : StateCode := 1#3
/-- ReceiveCommand, code 2. -/
def rc : StateCode := 2#3
/-- SearchPostamble1, code 3. -/
def spo1 : StateCode := 3#3
/-- SearchPostamble2, code 4. -/
def spo2 : StateCode := 4#3
/-- BufferOverflow, code 5. -/
def bo : StateCode := 5#3

end Sys2Proof.Config
end

