-- ==== Sys2Proof/Syntax.lean ====
section
/-! DEFINITION. The instructions: one constructor for each of the 32 rows of spec/opcode_table.json, sixteen host
operations and reserved words (30_encoding R70) and sixteen receive rows (R68). Also the host call, which carries
an operation word with its side operands (R69), and the names of the receive rows. -/

namespace Sys2Proof

/-- One constructor per row of spec/opcode_table.json. A receive row whose key is exact carries no byte, because
the key fixes it; the other rows carry the input byte `b`. -/
inductive Instr where
  /-- PROCESS_INPUT (40_receive R77). -/
  | processInput
  /-- RESET (41_host_access R102). -/
  | reset
  /-- GET_STATE (41_host_access R98). -/
  | getState
  /-- GET_PACKET (41_host_access R99). -/
  | getPacket
  /-- PKT_HAS_DATA (41_host_access R100). -/
  | pktHasData
  /-- PKT_READ_DATA (41_host_access R101): the index of the data byte. -/
  | pktReadData (i : Byte)
  /-- SEND_PACKET0 (43_transmit R116): the type. -/
  | sendPacket0 (t : Byte)
  /-- SEND_PACKET1 (43_transmit R117): the type and the one data byte. -/
  | sendPacket1 (t d : Byte)
  /-- SEND_PACKET (43_transmit R115): the type, LEN and DATA. -/
  | sendPacket (t len : Byte) (data : List Byte)
  /-- CHECKSUM (42_codec R104). -/
  | checksum (bytes : List Byte)
  /-- ENCODE (42_codec R108): the type and DATA. -/
  | encodeFrame (t : Byte) (data : List Byte)
  /-- DECODE (42_codec R110). -/
  | decodeFrame (bytes : List Byte)
  /-- HAS_PACKET (41_host_access R141). -/
  | hasPacket
  /-- RESERVED_0xD (30_encoding R72): the ignored ARG. -/
  | reservedD (arg : Byte)
  /-- RESERVED_0xE (30_encoding R72). -/
  | reservedE (arg : Byte)
  /-- RESERVED_0xF (30_encoding R72). -/
  | reservedF (arg : Byte)
  /-- SP1_PRE1 (40_receive R78), b = 0xF0. -/
  | sp1Pre1
  /-- SP1_OTHER (40_receive R79). -/
  | sp1Other (b : Byte)
  /-- SP2_PRE2 (40_receive R80), b = 0xCA. -/
  | sp2Pre2
  /-- SP2_PRE1 (40_receive R81), b = 0xF0. -/
  | sp2Pre1
  /-- SP2_OTHER (40_receive R82). -/
  | sp2Other (b : Byte)
  /-- RC_STORE (40_receive R83). -/
  | rcStore (b : Byte)
  /-- RC_OVERFLOW (40_receive R84). -/
  | rcOverflow (b : Byte)
  /-- RC_END (40_receive R85). -/
  | rcEnd (b : Byte)
  /-- SPO1_POST1 (40_receive R86), b = 0x53. -/
  | spo1Post1
  /-- SPO1_OTHER (40_receive R87). -/
  | spo1Other (b : Byte)
  /-- SPO2_POST2_OK (40_receive R88), b = 0x0F. -/
  | spo2Post2Ok
  /-- SPO2_POST2_BAD (40_receive R89), b = 0x0F. -/
  | spo2Post2Bad
  /-- SPO2_OTHER (40_receive R90). -/
  | spo2Other (b : Byte)
  /-- BO_PRE1 (40_receive R91), b = 0xF0. -/
  | boPre1
  /-- BO_OTHER (40_receive R92). -/
  | boOther (b : Byte)
  /-- ILLEGAL_STATE (40_receive R76): the low bit of the code (6 or 7) and the byte. -/
  | illegalState (low : BitVec 1) (b : Byte)
deriving DecidableEq, Repr

/-- The names of the rows of the receive decode key (30_encoding R68); TRACE records them (60_exceptions R122). -/
inductive RxRow where
  | sp1Pre1 | sp1Other | sp2Pre2 | sp2Pre1 | sp2Other | rcStore | rcOverflow | rcEnd
  | spo1Post1 | spo1Other | spo2Post2Ok | spo2Post2Bad | spo2Other | boPre1 | boOther | illegalState
deriving DecidableEq, Repr

/-- The conditions on the buffer, after the store of the step, that split the rows marked `cond`
(30_encoding R68): R84's, R85's, and whether the checksum matches (R88). -/
structure RxCond where
  overflow   : Bool
  frameEnd   : Bool
  checksumOk : Bool
deriving DecidableEq, Repr

/-- A host operation as the caller issues it: the operation word with the side operands carried with it
(30_encoding R69): a byte D, a byte LEN, and a byte list, which is DATA or BYTES. DESIGN CHOICE, safe
(log entry 9): a call always carries all three, and an operation ignores those its row does not list. -/
structure HostCall where
  word : OpWord
  d    : Byte := 0#8
  len  : Byte := 0#8
  list : List Byte := []
deriving DecidableEq, Repr

/-- An instruction's encoding: a host call, or a receive decode key. -/
inductive Encoded where
  | host (c : HostCall)
  | key (k : RxKey)
deriving DecidableEq, Repr

end Sys2Proof
end

