-- ==== Sys2Proof/WellFormed.lean ====
section
/-! DEFINITION. Which instructions the encodings can express: a default row carries no byte that an exact row of
the same state takes (30_encoding R68), and a SEND_PACKET has `len(DATA) = LEN` (R71, R72). -/

namespace Sys2Proof

/-- The instruction is one its row of the opcode table admits. -/
def Instr.wellFormed : Instr → Bool
  | .processInput => true
  | .reset => true
  | .getState => true
  | .getPacket => true
  | .pktHasData => true
  | .pktReadData _ => true
  | .sendPacket0 _ => true
  | .sendPacket1 _ _ => true
  | .sendPacket _ len data => data.length == len.toNat
  | .checksum _ => true
  | .encodeFrame _ _ => true
  | .decodeFrame _ => true
  | .hasPacket => true
  | .reservedD _ => true
  | .reservedE _ => true
  | .reservedF _ => true
  | .sp1Pre1 => true
  | .sp1Other b => b != Config.preamble1
  | .sp2Pre2 => true
  | .sp2Pre1 => true
  | .sp2Other b => b != Config.preamble2 && b != Config.preamble1
  | .rcStore _ => true
  | .rcOverflow _ => true
  | .rcEnd _ => true
  | .spo1Post1 => true
  | .spo1Other b => b != Config.postamble1
  | .spo2Post2Ok => true
  | .spo2Post2Bad => true
  | .spo2Other b => b != Config.postamble2
  | .boPre1 => true
  | .boOther b => b != Config.preamble1
  | .illegalState _ _ => true

/-- The instruction is a row of the receive decode key (30_encoding R68), not a host operation. -/
def Instr.isRxRow : Instr → Bool
  | .processInput => false
  | .reset => false
  | .getState => false
  | .getPacket => false
  | .pktHasData => false
  | .pktReadData _ => false
  | .sendPacket0 _ => false
  | .sendPacket1 _ _ => false
  | .sendPacket _ _ _ => false
  | .checksum _ => false
  | .encodeFrame _ _ => false
  | .decodeFrame _ => false
  | .hasPacket => false
  | .reservedD _ => false
  | .reservedE _ => false
  | .reservedF _ => false
  | .sp1Pre1 => true
  | .sp1Other _ => true
  | .sp2Pre2 => true
  | .sp2Pre1 => true
  | .sp2Other _ => true
  | .rcStore _ => true
  | .rcOverflow _ => true
  | .rcEnd _ => true
  | .spo1Post1 => true
  | .spo1Other _ => true
  | .spo2Post2Ok => true
  | .spo2Post2Bad => true
  | .spo2Other _ => true
  | .boPre1 => true
  | .boOther _ => true
  | .illegalState _ _ => true

end Sys2Proof
end

