-- ==== Sys2Proof/Decode.lean ====
section
/-! DEFINITION. Decoding and encoding: the host operation word (30_encoding R69 to R72) and the receive decode key
(R68). Both decoders are total; a word without meaning is rejected by name. -/

namespace Sys2Proof

/-! ### The host operation word -/

/-- `OP = W[11:8]` (30_encoding R69). -/
def opOf (w : OpWord) : BitVec 4 := w.extractLsb' 8 4

/-- `ARG = W[7:0]` (30_encoding R69). -/
def argOf (w : OpWord) : Byte := w.extractLsb' 0 8

/-- The word of an operation code and an argument (30_encoding R69). -/
def opWord (op : BitVec 4) (arg : Byte) : OpWord := op ++ arg

/-- Why a host call is no instruction. -/
inductive DecodeError where
  /-- R_NONZERO_ARG (60_exceptions R126): the operation's ARG must be 0. -/
  | nonzeroArg (w : OpWord)
deriving DecidableEq, Repr

/-- An operation whose ARG must be 0 (30_encoding R70, R72). -/
def needZeroArg (w : OpWord) (i : Instr) : Except DecodeError Instr :=
  if argOf w = 0#8 then .ok i else .error (.nonzeroArg w)

/-- The instruction of a host call (30_encoding R70). The codes D to F are the reserved rows, whose ARG is
ignored, so that R_RESERVED_OP comes before R_NONZERO_ARG (60_exceptions R131). -/
def decodeHost (c : HostCall) : Except DecodeError Instr :=
  match (opOf c.word).toNat with
  | 0 => needZeroArg c.word .processInput
  | 1 => needZeroArg c.word .reset
  | 2 => needZeroArg c.word .getState
  | 3 => needZeroArg c.word .getPacket
  | 4 => needZeroArg c.word .pktHasData
  | 5 => .ok (.pktReadData (argOf c.word))
  | 6 => .ok (.sendPacket0 (argOf c.word))
  | 7 => .ok (.sendPacket1 (argOf c.word) c.d)
  | 8 => .ok (.sendPacket (argOf c.word) c.len c.list)
  | 9 => needZeroArg c.word (.checksum c.list)
  | 10 => .ok (.encodeFrame (argOf c.word) c.list)
  | 11 => needZeroArg c.word (.decodeFrame c.list)
  | 12 => needZeroArg c.word .hasPacket
  | 13 => .ok (.reservedD (argOf c.word))
  | 14 => .ok (.reservedE (argOf c.word))
  | _ => .ok (.reservedF (argOf c.word))

/-! ### The receive decode key -/

/-- `KEY[10:8] = STATE` (30_encoding R68). -/
def keyState (k : RxKey) : StateCode := k.extractLsb' 8 3

/-- `KEY[7:0] = b` (30_encoding R68). -/
def keyByte (k : RxKey) : Byte := k.extractLsb' 0 8

/-- `KEY = STATE[2:0] ‖ b[7:0]` (30_encoding R68). -/
def rxKey (st : StateCode) (b : Byte) : RxKey := st ++ b

/-- The row a key and its conditions select (30_encoding R68, 40_receive R76). In ReceiveCommand the overflow
test comes before the end test (60_exceptions R130). -/
def rowOfKey (k : RxKey) (c : RxCond) : RxRow :=
  if keyState k = Config.sp1 then
    if keyByte k = Config.preamble1 then .sp1Pre1 else .sp1Other
  else if keyState k = Config.sp2 then
    if keyByte k = Config.preamble2 then .sp2Pre2
    else if keyByte k = Config.preamble1 then .sp2Pre1 else .sp2Other
  else if keyState k = Config.rc then
    if c.overflow then .rcOverflow else if c.frameEnd then .rcEnd else .rcStore
  else if keyState k = Config.spo1 then
    if keyByte k = Config.postamble1 then .spo1Post1 else .spo1Other
  else if keyState k = Config.spo2 then
    if keyByte k = Config.postamble2 then
      if c.checksumOk then .spo2Post2Ok else .spo2Post2Bad
    else .spo2Other
  else if keyState k = Config.bo then
    if keyByte k = Config.preamble1 then .boPre1 else .boOther
  else .illegalState

/-- The row as an instruction, with the operands its key carries. -/
def instrOfRow (r : RxRow) (k : RxKey) : Instr :=
  match r with
  | .sp1Pre1 => .sp1Pre1
  | .sp1Other => .sp1Other (keyByte k)
  | .sp2Pre2 => .sp2Pre2
  | .sp2Pre1 => .sp2Pre1
  | .sp2Other => .sp2Other (keyByte k)
  | .rcStore => .rcStore (keyByte k)
  | .rcOverflow => .rcOverflow (keyByte k)
  | .rcEnd => .rcEnd (keyByte k)
  | .spo1Post1 => .spo1Post1
  | .spo1Other => .spo1Other (keyByte k)
  | .spo2Post2Ok => .spo2Post2Ok
  | .spo2Post2Bad => .spo2Post2Bad
  | .spo2Other => .spo2Other (keyByte k)
  | .boPre1 => .boPre1
  | .boOther => .boOther (keyByte k)
  | .illegalState => .illegalState (k.extractLsb' 8 1) (keyByte k)

/-- The instruction of a receive key under the buffer's conditions (30_encoding R68). Total: for every key exactly
one row applies. -/
def decodeKey (k : RxKey) (c : RxCond) : Instr := instrOfRow (rowOfKey k c) k

/-! ### The table of the key, as 30_encoding R68 prints it -/

/-- The condition column of the table of 30_encoding R68. -/
inductive RowCond where
  | always | neither | overflow | frameEnd | checksumMatches | checksumDiffers
deriving DecidableEq, Repr

/-- Whether a row's condition holds. R85's needs R84's to fail, because it is tested second (60_exceptions R130). -/
def RowCond.holds (r : RowCond) (c : RxCond) : Bool :=
  match r with
  | .always => true
  | .neither => !c.overflow && !c.frameEnd
  | .overflow => c.overflow
  | .frameEnd => !c.overflow && c.frameEnd
  | .checksumMatches => c.checksumOk
  | .checksumDiffers => !c.checksumOk

/-- One row of the table of 30_encoding R68: its name, KEY match, KEY mask, whether it is a default row, and its
condition. -/
structure RxEntry where
  row       : RxRow
  keyMatch  : RxKey
  keyMask   : RxKey
  isDefault : Bool
  cond      : RowCond
deriving DecidableEq, Repr

/-- The sixteen rows of 30_encoding R68, in its order. -/
def rxTable : List RxEntry :=
  [⟨.sp1Pre1, 0x0F0#11, 0x7FF#11, false, .always⟩,
   ⟨.sp1Other, 0x000#11, 0x700#11, true, .always⟩,
   ⟨.sp2Pre2, 0x1CA#11, 0x7FF#11, false, .always⟩,
   ⟨.sp2Pre1, 0x1F0#11, 0x7FF#11, false, .always⟩,
   ⟨.sp2Other, 0x100#11, 0x700#11, true, .always⟩,
   ⟨.rcStore, 0x200#11, 0x700#11, false, .neither⟩,
   ⟨.rcOverflow, 0x200#11, 0x700#11, false, .overflow⟩,
   ⟨.rcEnd, 0x200#11, 0x700#11, false, .frameEnd⟩] ++
  [⟨.spo1Post1, 0x353#11, 0x7FF#11, false, .always⟩,
   ⟨.spo1Other, 0x300#11, 0x700#11, true, .always⟩,
   ⟨.spo2Post2Ok, 0x40F#11, 0x7FF#11, false, .checksumMatches⟩,
   ⟨.spo2Post2Bad, 0x40F#11, 0x7FF#11, false, .checksumDiffers⟩,
   ⟨.spo2Other, 0x400#11, 0x700#11, true, .always⟩,
   ⟨.boPre1, 0x5F0#11, 0x7FF#11, false, .always⟩,
   ⟨.boOther, 0x500#11, 0x700#11, true, .always⟩,
   ⟨.illegalState, 0x600#11, 0x600#11, false, .always⟩]

/-- The key meets the row's match, mask and condition. -/
def RxEntry.fits (e : RxEntry) (k : RxKey) (c : RxCond) : Bool :=
  (k &&& e.keyMask) == e.keyMatch && e.cond.holds c

/-- The rows of the table that apply: the exact rows that fit, or the default rows when no exact row does
(30_encoding R68). -/
def rowsThatApply (k : RxKey) (c : RxCond) : List RxRow :=
  match rxTable.filter (fun e => !e.isDefault && e.fits k c) with
  | [] => (rxTable.filter (fun e => e.isDefault && e.fits k c)).map RxEntry.row
  | es => es.map RxEntry.row

/-! ### The encoder -/

/-- The encoding of an instruction, from the same tables. The side operands an operation does not have are 0 and
empty. -/
def encode : Instr → Encoded
  | .processInput => .host { word := opWord 0x0#4 0#8 }
  | .reset => .host { word := opWord 0x1#4 0#8 }
  | .getState => .host { word := opWord 0x2#4 0#8 }
  | .getPacket => .host { word := opWord 0x3#4 0#8 }
  | .pktHasData => .host { word := opWord 0x4#4 0#8 }
  | .pktReadData i => .host { word := opWord 0x5#4 i }
  | .sendPacket0 t => .host { word := opWord 0x6#4 t }
  | .sendPacket1 t d => .host { word := opWord 0x7#4 t, d := d }
  | .sendPacket t len data => .host { word := opWord 0x8#4 t, len := len, list := data }
  | .checksum bytes => .host { word := opWord 0x9#4 0#8, list := bytes }
  | .encodeFrame t data => .host { word := opWord 0xA#4 t, list := data }
  | .decodeFrame bytes => .host { word := opWord 0xB#4 0#8, list := bytes }
  | .hasPacket => .host { word := opWord 0xC#4 0#8 }
  | .reservedD arg => .host { word := opWord 0xD#4 arg }
  | .reservedE arg => .host { word := opWord 0xE#4 arg }
  | .reservedF arg => .host { word := opWord 0xF#4 arg }
  | .sp1Pre1 => .key 0x0F0#11
  | .sp1Other b => .key (rxKey Config.sp1 b)
  | .sp2Pre2 => .key 0x1CA#11
  | .sp2Pre1 => .key 0x1F0#11
  | .sp2Other b => .key (rxKey Config.sp2 b)
  | .rcStore b => .key (rxKey Config.rc b)
  | .rcOverflow b => .key (rxKey Config.rc b)
  | .rcEnd b => .key (rxKey Config.rc b)
  | .spo1Post1 => .key 0x353#11
  | .spo1Other b => .key (rxKey Config.spo1 b)
  | .spo2Post2Ok => .key 0x40F#11
  | .spo2Post2Bad => .key 0x40F#11
  | .spo2Other b => .key (rxKey Config.spo2 b)
  | .boPre1 => .key 0x5F0#11
  | .boOther b => .key (rxKey Config.bo b)
  | .illegalState low b => .key (rxKey (0x3#2 ++ low) b)

/-- The conditions under which a key's row is this instruction; only the rows that share a key constrain them
(30_encoding R68). -/
def Instr.condHolds (i : Instr) (c : RxCond) : Bool :=
  match i with
  | .processInput => true
  | .reset => true
  | .getState => true
  | .getPacket => true
  | .pktHasData => true
  | .pktReadData _ => true
  | .sendPacket0 _ => true
  | .sendPacket1 _ _ => true
  | .sendPacket _ _ _ => true
  | .checksum _ => true
  | .encodeFrame _ _ => true
  | .decodeFrame _ => true
  | .hasPacket => true
  | .reservedD _ => true
  | .reservedE _ => true
  | .reservedF _ => true
  | .sp1Pre1 => true
  | .sp1Other _ => true
  | .sp2Pre2 => true
  | .sp2Pre1 => true
  | .sp2Other _ => true
  | .rcStore _ => RowCond.neither.holds c
  | .rcOverflow _ => RowCond.overflow.holds c
  | .rcEnd _ => RowCond.frameEnd.holds c
  | .spo1Post1 => true
  | .spo1Other _ => true
  | .spo2Post2Ok => RowCond.checksumMatches.holds c
  | .spo2Post2Bad => RowCond.checksumDiffers.holds c
  | .spo2Other _ => true
  | .boPre1 => true
  | .boOther _ => true
  | .illegalState _ _ => true

/-- The decoder of either word space; the conditions matter only to a key. -/
def decode (e : Encoded) (c : RxCond) : Except DecodeError Instr :=
  match e with
  | .host call => decodeHost call
  | .key k => .ok (decodeKey k c)

/-! ### Reading a word of the opcode table -/

/-- The conditions of a key read with no buffer behind it: no overflow, not the frame's end, checksum matching.
They are those of the reset buffer (log entry 8). -/
def bareCond : RxCond := ⟨false, false, true⟩

/-- A table word as a call of the host interface, its side operands 0 and empty. -/
def tableCall (w : Nat) : HostCall := { word := BitVec.ofNat 12 w }

/-- The host call of a table word, when it decodes. -/
def decodeTableHost (w : Nat) : Option Instr :=
  if w < 4096 then
    match decodeHost (tableCall w) with
    | .ok i => some i
    | .error _ => none
  else none

/-- The receive row of a table word. -/
def decodeTableKey (w : Nat) : Option Instr :=
  if w < 2048 then some (decodeKey (BitVec.ofNat 11 w) bareCond) else none

/-- The instruction read from a word of the opcode table. The table has two word spaces: 11 bits are a receive
key and 12 bits a host operation word. DESIGN CHOICE, safe (log entry 8): a wider container does not say which,
so it is read as a host word, and as a key where the host space has no instruction for it. -/
def decodeTableWord (nbits w : Nat) : Option Instr :=
  if nbits ≤ 11 then decodeTableKey w
  else if nbits = 12 then decodeTableHost w
  else
    match decodeTableHost w with
    | some i => some i
    | none => decodeTableKey w

end Sys2Proof
end

