-- ==== Sys2Proof/Machine/State.lean ====
section
/-! DEFINITION. The state of the machine as plain data: the seven elements of the block (10_state R18), what the
spec has a model keep beside them (R28 to R32), the parameter CAPACITY, and the model's own fields; the reasons a
step can stop; the state at power-on (70_reset R142). -/

namespace Sys2Proof.Machine

/-- The receive buffer BUF: the bytes that differ from the power-on byte, by rising index (10_state R22,
20_memory R37). -/
abbrev Memory := List Host.Cell

/-- A published packet: type, length and a copy of the data (10_state R30). -/
structure Packet where
  type   : Byte
  length : Byte
  data   : List Byte
deriving DecidableEq, Repr

/-- The classes of absorbed error (60_exceptions R121). -/
inductive TraceCode where
  | framing | checksum | overflow
deriving DecidableEq, Repr

/-- An entry of TRACE: the code and the row that absorbed the error (60_exceptions R122). -/
structure TraceEntry where
  code : TraceCode
  row  : RxRow
deriving DecidableEq, Repr

/-- The reasons of `ERR` (42_codec R109). -/
inductive DecodeReason where
  | short | preamble | oversize | length | postamble | checksum
deriving DecidableEq, Repr

/-- The result of DECODE_FN (42_codec R109). -/
inductive DecodeResult where
  | ok (p : Packet)
  | err (r : DecodeReason)
deriving DecidableEq, Repr

/-- The result of ENCODE_FN (42_codec R107). -/
inductive EncodeResult where
  | ok (frame : List Byte)
  | rejected
deriving DecidableEq, Repr

/-- The result of a SEND operation (43_transmit R115). -/
inductive SendResult where
  | ok | rejected
deriving DecidableEq, Repr

/-- The result of a host operation, by its type in 30_encoding R71. -/
inductive Result where
  | unit
  | stateCode (code : StateCode)
  | packet (type length : Byte) (hasData : Bool)
  | bool (v : Bool)
  | byte (v : Byte)
  | sent (r : SendResult)
  | encoded (r : EncodeResult)
  | decoded (r : DecodeResult)
deriving DecidableEq, Repr

/-- Why the machine stops with a fault. The first four are the model faults of 60_exceptions R124, each with what it
records. -/
inductive Fault where
  /-- F_NO_PACKET, code 1: raised by GET_PACKET, PKT_HAS_DATA and PKT_READ_DATA while PKT_VALID = 0
  (41_host_access R99 to R101). Safe: the spec names it. Records the operation word. -/
  | noPacket (op : OpWord)
  /-- F_VIEW_INDEX, code 2: raised by PKT_READ_DATA when `i ≥ PKT_LEN` (41_host_access R101). Safe: the spec names it. -/
  | viewIndex (i pktLen : Byte)
  /-- F_ILLEGAL_STATE, code 3: raised by the receive step in the states 6 and 7 (40_receive R76). Safe: the spec
  names it. -/
  | illegalState (st : StateCode) (b : Byte)
  /-- F_BOUND, code 4: raised by a buffer access at `i ≥ CAPACITY` (20_memory R39, R40). Safe: the spec names it. -/
  | bound (i : Nat)
  /-- No model fault of the spec but its stuck case U19 (40_receive R77, D18): raised by PROCESS_INPUT alone, when the
  transport never lets RXQ run empty, so that the call never returns. Safe: the machine makes no progress. -/
  | neverReturns
deriving DecidableEq, Repr

/-- Why an operation has no meaning. All but the first are the refusals of 60_exceptions R126; each is safe, because
the spec gives the form no meaning, and records the operation (R127; log entry 13). -/
inductive Refusal where
  /-- Raised by an arm of `exec` whose instruction has no meaning yet. Safe: nothing is proved of it. -/
  | notModelled (mnemonic : String)
  /-- R_RESERVED_OP: raised by the operation codes D to F. Safe. -/
  | reservedOp (w : OpWord)
  /-- R_NONZERO_ARG: raised by the step when a word's ARG must be 0 and is not. Safe. -/
  | nonzeroArg (w : OpWord)
  /-- R_OPERAND: raised by SEND_PACKET when `len(DATA) ≠ LEN`. Safe. -/
  | operand (w : OpWord) (len : Byte) (dataLen : Nat)
  /-- R_READ_EMPTY: raised by RxRead on an empty queue; PROCESS_INPUT never does this (20_memory R50). Safe. -/
  | readEmpty
deriving DecidableEq, Repr

/-- One move of the environment, in the notation of 30_encoding R74: the caller issues a host operation, or the
transport appends bytes to RXQ (`.rx`, 20_memory R48). -/
inductive Move where
  | call (c : HostCall)
  | rx (bs : List Byte)
deriving DecidableEq, Repr

/-- The state of the machine. -/
structure State where
  /-- The parameter CAPACITY, fixed at construction (00_scope R8, 70_reset R142). -/
  capacity : Nat
  /-- STATE, the parse state (10_state R19). -/
  state : StateCode
  /-- CURSOR, the write cursor (10_state R20). -/
  cursor : Nat
  /-- USED_LEN, the count of valid bytes (10_state R21). -/
  usedLen : Nat
  /-- BUF, the receive buffer (10_state R22). -/
  buf : Memory
  /-- PKT_VALID (10_state R23). -/
  pktValid : Bool
  /-- PKT_TYPE (10_state R24). -/
  pktType : Byte
  /-- PKT_LEN (10_state R25). -/
  pktLen : Byte
  /-- RXQ, the transport's receive queue, oldest first (10_state R28). -/
  rxq : List Byte
  /-- TXLOG, the TxWrite events in order (10_state R29, 20_memory R51). -/
  txlog : List (List Byte)
  /-- PUBLOG, the published packets in order (10_state R30). -/
  publog : List Packet
  /-- TRACE, the absorbed errors in order (10_state R31). -/
  trace : List TraceEntry
  /-- FAULT, the first model fault (10_state R32). -/
  faultMark : Option Fault
  /-- REFUSED, the first refusal (10_state R32). -/
  refusedMark : Option Refusal
  /-- The model's own: the result of the last host operation that returned (30_encoding R71; log entry 4). -/
  result : Option Result
  /-- The model's own: the moves of caller and transport still to come (30_encoding R74; log entry 5). -/
  script : List Move
  /-- The model's own: what the transport appends after each coming receive step (20_memory R48; log entry 6). -/
  arrivals : List (List Byte)
  /-- The model's own: after `arrivals` the transport never lets RXQ run empty inside PROCESS_INPUT (40_receive R77,
  D18; log entry 6). -/
  endless : Bool
deriving DecidableEq, Repr

/-- The power-on state with a given CAPACITY and buffer content (70_reset R142). -/
def State.powerOn (capacity : Nat) (buf : Memory) : State where
  capacity := capacity
  state := Config.sp1
  cursor := 0
  usedLen := 0
  buf := buf
  pktValid := false
  pktType := Config.typeSentinel
  pktLen := 0x00#8
  rxq := []
  txlog := []
  publog := []
  trace := []
  faultMark := none
  refusedMark := none
  result := none
  script := []
  arrivals := []
  endless := false

/-- The machine right after power-on at the reference sizing (70_reset R142, 00_scope R8), with every buffer byte at
the power-on byte (log entry 3). -/
def State.reset : State := State.powerOn Config.referenceCapacity []

end Sys2Proof.Machine
end

