-- ==== Sys2Proof/Machine/Ops.lean ====
section
/-! DEFINITION. The shared operations: sequencing of outcomes, the buffer primitives (20_memory R39, R40), the
transport primitives (R49 to R51), Publish (40_receive R93) and Trace (60_exceptions R122), and the marks that a
fault or a refusal sets (R125, R127). The block takes no exception and returns from none (R120, R132, R133): raising
a model fault and setting its mark is the only thing of that kind. -/

namespace Sys2Proof.Machine

/-- Run `f` on what the first operation leaves; a fault or a refusal ends the whole (60_exceptions R125, R127). -/
def andThen {α β : Type} (o : Host.Outcome α Fault Refusal) (f : α → Host.Outcome β Fault Refusal) :
    Host.Outcome β Fault Refusal :=
  match o with
  | .next a => f a
  | .fault r => .fault r
  | .refused r => .refused r

/-! ### The buffer as a list of cells -/

/-- The byte at an index; an unlisted index reads as the power-on byte. -/
def Memory.read (m : Memory) (i : Nat) : Byte :=
  match m with
  | [] => Config.bufPowerOn
  | c :: rest => if c.1 = i then c.2 else Memory.read rest i

/-- Put a cell in its place by rising index, replacing the one it finds; the power-on byte is not listed. -/
def Memory.write (m : Memory) (i : Nat) (v : Byte) : Memory :=
  match m with
  | [] => if v = Config.bufPowerOn then [] else [(i, v)]
  | c :: rest =>
    if c.1 < i then c :: Memory.write rest i v
    else
      let tail := if c.1 = i then rest else c :: rest
      if v = Config.bufPowerOn then tail else (i, v) :: tail

/-- The cells lie at rising indices, all at or above `lo`, and none holds the power-on byte. -/
def Memory.wfFrom (lo : Nat) (m : Memory) : Bool :=
  match m with
  | [] => true
  | c :: rest => decide (lo ≤ c.1) && decide (c.2 ≠ Config.bufPowerOn) && Memory.wfFrom (c.1 + 1) rest

/-- The canonical form of the buffer. -/
def Memory.wf (m : Memory) : Bool := Memory.wfFrom 0 m

/-- Every listed index is below CAPACITY. -/
def Memory.below (capacity : Nat) (m : Memory) : Bool :=
  match m with
  | [] => true
  | c :: rest => decide (c.1 < capacity) && Memory.below capacity rest

/-- The `n` bytes from index `lo` on, `BUF[lo .. lo + n)`. -/
def Memory.span (m : Memory) (lo n : Nat) : List Byte :=
  match n with
  | 0 => []
  | k + 1 => Memory.read m lo :: Memory.span m (lo + 1) k

/-! ### Buffer primitives -/

/-- `BUF[i]` (20_memory R39). -/
def bufRead (i : Nat) (s : State) : Host.Outcome Byte Fault Refusal :=
  if s.capacity ≤ i then .fault (.bound i) else .next (s.buf.read i)

/-- `BUF[lo .. lo + n)`, one buffer read after another. -/
def bufSpan (lo n : Nat) (s : State) : Host.Outcome (List Byte) Fault Refusal :=
  match n with
  | 0 => .next []
  | k + 1 =>
    andThen (bufRead lo s) fun b =>
      andThen (bufSpan (lo + 1) k s) fun bs => .next (b :: bs)

/-- `BufWrite(i, v)` (20_memory R40). -/
def bufWrite (i : Nat) (v : Byte) (s : State) : Host.Outcome State Fault Refusal :=
  if s.capacity ≤ i then .fault (.bound i) else .next { s with buf := s.buf.write i v }

/-- `CURSOR` moves past the byte just written; `USED_LEN` follows it and the Packet's view ends (20_memory R40). -/
def State.advanced (s : State) : State :=
  { s with cursor := s.cursor + 1, usedLen := s.cursor + 1, pktValid := false }

/-- `Store(b)` (20_memory R40). -/
def store (b : Byte) (s : State) : Host.Outcome State Fault Refusal :=
  andThen (bufWrite s.cursor b s) fun s => .next s.advanced

/-- The state a `Store(b)` leaves when CURSOR is inside the buffer. -/
def State.stored (b : Byte) (s : State) : State :=
  { s with buf := s.buf.write s.cursor b, cursor := s.cursor + 1, usedLen := s.cursor + 1, pktValid := false }

/-- `STATE <- c` (00_scope R14). -/
def State.setState (c : StateCode) (s : State) : State := { s with state := c }

/-- `CURSOR <- 0`. -/
def State.clearCursor (s : State) : State := { s with cursor := 0 }

/-- Start a frame with PREAMBLE1: the effect SP1_PRE1, SP2_PRE1 and BO_PRE1 share (40_receive R78, R81, R91). -/
def startFrame (s : State) : Host.Outcome State Fault Refusal :=
  andThen (store Config.preamble1 s.clearCursor) fun s => .next (s.setState Config.sp2)

/-- `Publish(t, n, d)` (40_receive R93). -/
def State.publish (t n : Byte) (d : List Byte) (s : State) : State :=
  { s with pktType := t, pktLen := n, pktValid := true, publog := s.publog ++ [⟨t, n, d⟩] }

/-- The number of an error class (60_exceptions R122). -/
def TraceCode.number (c : TraceCode) : Nat :=
  match c with
  | .framing => 1
  | .checksum => 2
  | .overflow => 3

/-- `Trace(code)` by a row (60_exceptions R122). -/
def State.traced (c : TraceCode) (row : RxRow) (s : State) : State :=
  { s with trace := s.trace ++ [⟨c, row⟩] }

/-! ### Transport primitives -/

/-- `RxAvailable()` (20_memory R49). -/
def State.rxAvailable (s : State) : Bool := !s.rxq.isEmpty

/-- `RxRead()` (20_memory R50): the head of RXQ, and the state without it. -/
def rxRead (s : State) : Host.Outcome (Byte × State) Fault Refusal :=
  match s.rxq with
  | [] => .refused .readEmpty
  | b :: rest => .next (b, { s with rxq := rest })

/-- The transport appends bytes to the tail of RXQ (20_memory R48). -/
def State.received (bs : List Byte) (s : State) : State := { s with rxq := s.rxq ++ bs }

/-- The transport's move after a receive step: it appends what ARRIVALS holds for it. With ARRIVALS used up it appends
nothing, unless it never stops; then PROCESS_INPUT never returns (40_receive R77, D18). -/
def transportMove (s : State) : Host.Outcome State Fault Refusal :=
  match s.arrivals with
  | bs :: rest => .next { s.received bs with arrivals := rest }
  | [] => if s.endless then .fault .neverReturns else .next s

/-- `TxWrite(bs)`, one event (20_memory R51). -/
def State.txWrite (bs : List Byte) (s : State) : State := { s with txlog := s.txlog ++ [bs] }

/-- TXLOG as the sequence of bytes of 10_state R29. -/
def State.txBytes (s : State) : List Byte := s.txlog.flatten

/-! ### Results and marks -/

/-- The operation returns a result (30_encoding R71). -/
def State.returns (r : Result) (s : State) : State := { s with result := some r }

/-- A host operation ends with a result. -/
def finish (r : Result) (s : State) : Host.Outcome State Fault Refusal := .next (s.returns r)

/-- The number of a model fault (60_exceptions R124); the stuck case is none of the four. -/
def Fault.number (f : Fault) : Option Nat :=
  match f with
  | .noPacket _ => some 1
  | .viewIndex _ _ => some 2
  | .illegalState _ _ => some 3
  | .bound _ => some 4
  | .neverReturns => none

/-- A mark is set, so the state is not final and nothing steps from it (10_state R32). -/
def State.marked (s : State) : Bool := s.faultMark.isSome || s.refusedMark.isSome

/-- Set the mark FAULT unless it is set (60_exceptions R125). -/
def State.markFault (f : Fault) (s : State) : State :=
  { s with faultMark := some (s.faultMark.getD f), result := none }

/-- Set the mark REFUSED unless it is set (60_exceptions R127). -/
def State.markRefused (r : Refusal) (s : State) : State :=
  { s with refusedMark := some (s.refusedMark.getD r), result := none }

/-- The environment's next move is made. -/
def State.moved (s : State) : State := { s with script := s.script.tail }

/-- The state a step leaves, the marks included: the next state, or the state before the operation with the call
taken and the mark of the fault or refusal set (60_exceptions R125, R127). A marked state stays as it is, and so does
one whose call never returns (log entry 10). -/
def settle (s : State) (o : Host.Outcome State Fault Refusal) : State :=
  if s.marked then s
  else
    match o with
    | .next t => t
    | .fault .neverReturns => s
    | .fault f => s.moved.markFault f
    | .refused r => s.moved.markRefused r

end Sys2Proof.Machine
end

