-- ==== Sys2Proof/Machine/Codec.lean ====
section
/-! DEFINITION. The checksum and the frame codec (42_codec), and the meanings of CHECKSUM, ENCODE and DECODE. The
codec functions take the checksum function and CAPACITY as arguments, because the round trip holds for every one
(R103, R111); the block uses the sum (R103, log entry 2). -/

namespace Sys2Proof.Machine

/-- The sum of the bytes as a natural number (42_codec R103). -/
def sumBytes (bs : List Byte) : Nat :=
  match bs with
  | [] => 0
  | b :: rest => b.toNat + sumBytes rest

/-- `CHECKSUM_FN(bs)`, the 8-bit truncated sum (42_codec R103). DESIGN CHOICE of the spec (D2), unsafe against a peer
with another function (log entry 2). -/
def checksumFn (bs : List Byte) : Byte := BitVec.ofNat 8 (sumBytes bs)

/-- `MAX_PAYLOAD = CAPACITY − 7` (00_scope R9). -/
def maxPayload (capacity : Nat) : Nat := capacity - Config.frameOverhead

/-- A frame of `n` data bytes is oversized: `7 + n > CAPACITY`, in exact arithmetic (30_encoding R64, 42_codec R114). -/
def oversized (capacity n : Nat) : Bool := decide (capacity < Config.frameOverhead + n)

/-- Element `i` of a byte list (00_scope R13); the codec asks only for elements that exist. -/
def byteAt (bs : List Byte) (i : Nat) : Byte := bs.getD i 0#8

/-- `bs[lo .. lo + n)` (00_scope R13). -/
def slice (bs : List Byte) (lo n : Nat) : List Byte := (bs.drop lo).take n

/-- The bytes of a frame: `F0 CA t L d… ck 53 0F` (30_encoding R56, 42_codec R107). -/
def frameOf (ck : List Byte → Byte) (t l : Byte) (d : List Byte) : List Byte :=
  [Config.preamble1, Config.preamble2, t, l] ++ d ++ [ck ([t, l] ++ d), Config.postamble1, Config.postamble2]

/-- `ENCODE_FN(t, d)` for a checksum function and a CAPACITY (42_codec R107). -/
def encodeFn (ck : List Byte → Byte) (capacity : Nat) (t : Byte) (d : List Byte) : EncodeResult :=
  if maxPayload capacity < d.length ∨ 255 < d.length then .rejected
  else .ok (frameOf ck t (BitVec.ofNat 8 d.length) d)

/-- `DECODE_FN(bs)` for a checksum function and a CAPACITY, its tests in the order of 42_codec R109. -/
def decodeFn (ck : List Byte → Byte) (capacity : Nat) (bs : List Byte) : DecodeResult :=
  let n := (byteAt bs 3).toNat
  if bs.length < 7 then .err .short
  else if byteAt bs 0 ≠ Config.preamble1 ∨ byteAt bs 1 ≠ Config.preamble2 then .err .preamble
  else if oversized capacity n then .err .oversize
  else if bs.length ≠ 7 + n then .err .length
  else if byteAt bs (5 + n) ≠ Config.postamble1 ∨ byteAt bs (6 + n) ≠ Config.postamble2 then .err .postamble
  else if byteAt bs (4 + n) ≠ ck (slice bs 2 (2 + n)) then .err .checksum
  else .ok ⟨byteAt bs 2, byteAt bs 3, slice bs 4 n⟩

/-- `OK` of DECODE_FN. -/
def DecodeResult.isOk (r : DecodeResult) : Bool :=
  match r with
  | .ok _ => true
  | .err _ => false

/-- A well-formed frame: DECODE_FN answers `OK` (42_codec R109). -/
def wellFormedFrame (capacity : Nat) (bs : List Byte) : Bool := (decodeFn checksumFn capacity bs).isOk

/-- CHECKSUM (42_codec R104). -/
def execChecksum (bytes : List Byte) (s : State) : Host.Outcome State Fault Refusal :=
  finish (.byte (checksumFn bytes)) s

/-- ENCODE (42_codec R108). -/
def execEncode (t : Byte) (data : List Byte) (s : State) : Host.Outcome State Fault Refusal :=
  finish (.encoded (encodeFn checksumFn s.capacity t data)) s

/-- DECODE (42_codec R110). -/
def execDecode (bytes : List Byte) (s : State) : Host.Outcome State Fault Refusal :=
  finish (.decoded (decodeFn checksumFn s.capacity bytes)) s

end Sys2Proof.Machine
end

