-- ==== Sys2Proof/Machine/Flags.lean ====
section
/-! DEFINITION. The predicates the rules test. The block has no condition codes (10_state R27): its flag is
PKT_VALID, its derived predicate HAS_DATA, and the receive rows marked `cond` test the buffer after the store of
their step (30_encoding R68, 60_exceptions R130). -/

namespace Sys2Proof.Machine

/-- HAS_DATA (10_state R27). -/
def State.hasData (s : State) : Bool := decide (s.pktLen ≠ 0#8)

/-- No condition of the table holds. -/
def noCond : RxCond := ⟨false, false, false⟩

/-- The conditions of R84 and R85 on the state after the store (40_receive section 4): `BUF[3]` is read only when
`CURSOR ≥ 4`. -/
def commandCond (s : State) : Host.Outcome RxCond Fault Refusal :=
  if s.cursor < 4 then .next noCond
  else
    andThen (bufRead Config.dataLengthOffset s) fun len =>
      .next { overflow := decide (s.cursor = 4) && oversized s.capacity len.toNat,
              frameEnd := decide (5 ≤ s.cursor) && decide (s.cursor = 5 + len.toNat),
              checksumOk := false }

/-- The checksum validator `BUF[4 + N] = CHECKSUM_FN(BUF[2 .. 4 + N))` (42_codec R106). -/
def checksumMatches (s : State) : Host.Outcome Bool Fault Refusal :=
  andThen (bufRead Config.dataLengthOffset s) fun len =>
    andThen (bufRead (4 + len.toNat) s) fun c =>
      andThen (bufSpan Config.typeOffset (2 + len.toNat) s) fun span =>
        .next (decide (c = checksumFn span))

/-- The conditions under which the input byte is decoded: those of the state after its store in ReceiveCommand, and
at POSTAMBLE2 in SearchPostamble2; no other row has one (30_encoding R68). A frame with a bad postamble has no
checksum computed (60_exceptions R130). -/
def rxCond (b : Byte) (s : State) : Host.Outcome RxCond Fault Refusal :=
  if s.state = Config.rc then
    andThen (store b s) commandCond
  else if s.state = Config.spo2 ∧ b = Config.postamble2 then
    andThen (store b s) fun s => andThen (checksumMatches s) fun ok => .next { noCond with checksumOk := ok }
  else .next noCond

end Sys2Proof.Machine
end

