-- ==== Sys2Proof/Machine/Operands.lean ====
section
/-! DEFINITION. The operand forms of the host operations (30_encoding R71): the SEND operands with their length
check, the current Packet with its precondition, and the data view with its index check (60_exceptions R131). -/

namespace Sys2Proof.Machine

/-- The SEND operands: `len(DATA) = LEN`, or R_OPERAND (43_transmit R115). -/
def sendOperands (w : OpWord) (len : Byte) (data : List Byte) : Host.Outcome (List Byte) Fault Refusal :=
  if data.length = len.toNat then .next data else .refused (.operand w len data.length)

/-- The precondition of the packet operations: `PKT_VALID = 1`, or F_NO_PACKET (41_host_access R99 to R101). -/
def needPacket (w : OpWord) (s : State) : Host.Outcome State Fault Refusal :=
  if s.pktValid then .next s else .fault (.noPacket w)

/-- Where byte `i` of the Packet's data view lies in BUF: `4 + i`, or F_VIEW_INDEX when `i ≥ PKT_LEN`
(41_host_access R101, 10_state R26). -/
def viewIndex (i : Byte) (s : State) : Host.Outcome Nat Fault Refusal :=
  if s.pktLen.toNat ≤ i.toNat then .fault (.viewIndex i s.pktLen)
  else .next (Config.dataStartOffset + i.toNat)

end Sys2Proof.Machine
end

