-- ==== Sys2Proof/Machine/HostAccess.lean ====
section
/-! DEFINITION. The host's accessors (41_host_access): GET_STATE, GET_PACKET, PKT_HAS_DATA, PKT_READ_DATA, HAS_PACKET
and RESET. -/

namespace Sys2Proof.Machine

/-- RESET (41_host_access R102). -/
def execReset (s : State) : Host.Outcome State Fault Refusal :=
  finish .unit { s with state := Config.sp1, cursor := 0, usedLen := 0, pktValid := false }

/-- GET_STATE (41_host_access R98). -/
def execGetState (s : State) : Host.Outcome State Fault Refusal := finish (.stateCode s.state) s

/-- GET_PACKET (41_host_access R99). -/
def execGetPacket (s : State) : Host.Outcome State Fault Refusal :=
  andThen (needPacket (opWord 0x3#4 0#8) s) (finish (.packet s.pktType s.pktLen s.hasData))

/-- PKT_HAS_DATA (41_host_access R100). -/
def execPktHasData (s : State) : Host.Outcome State Fault Refusal :=
  andThen (needPacket (opWord 0x4#4 0#8) s) (finish (.bool s.hasData))

/-- PKT_READ_DATA (41_host_access R101). -/
def execPktReadData (i : Byte) (s : State) : Host.Outcome State Fault Refusal :=
  andThen (needPacket (opWord 0x5#4 i) s) fun s =>
    andThen (viewIndex i s) fun at_ =>
      andThen (bufRead at_ s) fun v => finish (.byte v) s

/-- HAS_PACKET (41_host_access R141). -/
def execHasPacket (s : State) : Host.Outcome State Fault Refusal := finish (.bool s.pktValid) s

end Sys2Proof.Machine
end

