-- ==== Sys2Proof/Machine/Receive.lean ====
section
/-! DEFINITION. The receive state machine (40_receive): the meaning of each row of the decode key, RX_STEP (R76),
and PROCESS_INPUT (R77). A row's meaning is its pseudocode; which row runs is the key's decoding (log entry 7). -/

namespace Sys2Proof.Machine

/-- SP1_PRE1 (40_receive R78). -/
def execSp1Pre1 (s : State) : Host.Outcome State Fault Refusal := startFrame s

/-- SP1_OTHER (40_receive R79): the byte is discarded. -/
def execSp1Other (_b : Byte) (s : State) : Host.Outcome State Fault Refusal := .next s

/-- SP2_PRE2 (40_receive R80). -/
def execSp2Pre2 (s : State) : Host.Outcome State Fault Refusal :=
  andThen (store Config.preamble2 s) fun s => .next (s.setState Config.rc)

/-- SP2_PRE1 (40_receive R81). -/
def execSp2Pre1 (s : State) : Host.Outcome State Fault Refusal :=
  andThen (startFrame s) fun s => .next (s.traced .framing .sp2Pre1)

/-- SP2_OTHER (40_receive R82). -/
def execSp2Other (_b : Byte) (s : State) : Host.Outcome State Fault Refusal :=
  .next ((s.setState Config.sp1).traced .framing .sp2Other)

/-- RC_STORE (40_receive R83). -/
def execRcStore (b : Byte) (s : State) : Host.Outcome State Fault Refusal := store b s

/-- RC_OVERFLOW (40_receive R84). -/
def execRcOverflow (b : Byte) (s : State) : Host.Outcome State Fault Refusal :=
  andThen (store b s) fun s => .next ((s.setState Config.bo).traced .overflow .rcOverflow)

/-- RC_END (40_receive R85). -/
def execRcEnd (b : Byte) (s : State) : Host.Outcome State Fault Refusal :=
  andThen (store b s) fun s => .next (s.setState Config.spo1)

/-- SPO1_POST1 (40_receive R86). -/
def execSpo1Post1 (s : State) : Host.Outcome State Fault Refusal :=
  andThen (store Config.postamble1 s) fun s => .next (s.setState Config.spo2)

/-- SPO1_OTHER (40_receive R87). -/
def execSpo1Other (_b : Byte) (s : State) : Host.Outcome State Fault Refusal :=
  .next ((s.setState Config.sp1).traced .framing .spo1Other)

/-- Publish the frame in the buffer: `t = BUF[2]`, `n = BUF[3]`, `d = BUF[4 .. 4 + n)` (40_receive R88, R93). -/
def publishFrame (s : State) : Host.Outcome State Fault Refusal :=
  andThen (bufRead Config.typeOffset s) fun t =>
    andThen (bufRead Config.dataLengthOffset s) fun n =>
      andThen (bufSpan Config.dataStartOffset n.toNat s) fun d => .next (s.publish t n d)

/-- SPO2_POST2_OK (40_receive R88). -/
def execSpo2Post2Ok (s : State) : Host.Outcome State Fault Refusal :=
  andThen (store Config.postamble2 s) fun s =>
    andThen (publishFrame s) fun s => .next (s.setState Config.sp1)

/-- SPO2_POST2_BAD (40_receive R89). -/
def execSpo2Post2Bad (s : State) : Host.Outcome State Fault Refusal :=
  andThen (store Config.postamble2 s) fun s =>
    .next ((s.traced .checksum .spo2Post2Bad).setState Config.sp1)

/-- SPO2_OTHER (40_receive R90). -/
def execSpo2Other (_b : Byte) (s : State) : Host.Outcome State Fault Refusal :=
  .next ((s.setState Config.sp1).traced .framing .spo2Other)

/-- BO_PRE1 (40_receive R91): exactly SP1_PRE1. -/
def execBoPre1 (s : State) : Host.Outcome State Fault Refusal := startFrame s

/-- BO_OTHER (40_receive R92): the byte is discarded. -/
def execBoOther (_b : Byte) (s : State) : Host.Outcome State Fault Refusal := .next s

/-- ILLEGAL_STATE (40_receive R76): the fault F_ILLEGAL_STATE records STATE and the byte. -/
def execIllegalState (low : BitVec 1) (b : Byte) (_s : State) : Host.Outcome State Fault Refusal :=
  .fault (.illegalState (0x3#2 ++ low) b)

/-- The meaning of a selected row on the input byte; an exact row has its byte from the key. -/
def runRow (r : RxRow) (b : Byte) (s : State) : Host.Outcome State Fault Refusal :=
  match r with
  | .sp1Pre1 => execSp1Pre1 s
  | .sp1Other => execSp1Other b s
  | .sp2Pre2 => execSp2Pre2 s
  | .sp2Pre1 => execSp2Pre1 s
  | .sp2Other => execSp2Other b s
  | .rcStore => execRcStore b s
  | .rcOverflow => execRcOverflow b s
  | .rcEnd => execRcEnd b s
  | .spo1Post1 => execSpo1Post1 s
  | .spo1Other => execSpo1Other b s
  | .spo2Post2Ok => execSpo2Post2Ok s
  | .spo2Post2Bad => execSpo2Post2Bad s
  | .spo2Other => execSpo2Other b s
  | .boPre1 => execBoPre1 s
  | .boOther => execBoOther b s
  | .illegalState => execIllegalState (s.state.extractLsb' 0 1) b s

/-- RX_STEP(b) (40_receive R76): the key and the conditions on the buffer select exactly one row, and it runs. -/
def rxStep (b : Byte) (s : State) : Host.Outcome State Fault Refusal :=
  andThen (rxCond b s) fun c => runRow (rowOfKey (rxKey s.state b) c) b s

/-- The receive machine fed a list of bytes, one RX_STEP a byte, with no transport in between: what the laws R95 to
R97 and R112 speak of. -/
def feed (bs : List Byte) (s : State) : Host.Outcome State Fault Refusal :=
  match bs with
  | [] => .next s
  | b :: rest => andThen (rxStep b s) (feed rest)

/-- The bytes one PROCESS_INPUT can read at most: those in RXQ and those still to arrive. -/
def State.pendingBytes (s : State) : Nat := s.rxq.length + s.arrivals.flatten.length

/-- The loop of PROCESS_INPUT (40_receive R77): while a byte is available, read it, run RX_STEP on it, and let the
transport move. `fuel` bounds the bytes read; `pendingBytes` is always enough. -/
def drain (fuel : Nat) (s : State) : Host.Outcome State Fault Refusal :=
  match fuel with
  | 0 => .next s
  | k + 1 =>
    if s.rxAvailable then
      andThen (rxRead s) fun r =>
        andThen (rxStep r.1 r.2) fun s =>
          andThen (transportMove s) (drain k)
    else .next s

/-- PROCESS_INPUT (40_receive R77). -/
def execProcessInput (s : State) : Host.Outcome State Fault Refusal :=
  andThen (drain s.pendingBytes s) (finish .unit)

end Sys2Proof.Machine
end

