-- ==== Sys2Proof/Machine/Reserved.lean ====
section
/-! DEFINITION. The reserved operation codes D to F, which the spec refuses with R_RESERVED_OP (30_encoding R72,
60_exceptions R126). -/

namespace Sys2Proof.Machine

/-- `refuse(R_RESERVED_OP)` of a word (60_exceptions R126, R127). -/
def refuseReserved (w : OpWord) : Host.Outcome State Fault Refusal := .refused (.reservedOp w)

/-- RESERVED_0xD (30_encoding R72). -/
def execReservedD (arg : Byte) (_s : State) : Host.Outcome State Fault Refusal :=
  refuseReserved (opWord 0xD#4 arg)

/-- RESERVED_0xE (30_encoding R72). -/
def execReservedE (arg : Byte) (_s : State) : Host.Outcome State Fault Refusal :=
  refuseReserved (opWord 0xE#4 arg)

/-- RESERVED_0xF (30_encoding R72). -/
def execReservedF (arg : Byte) (_s : State) : Host.Outcome State Fault Refusal :=
  refuseReserved (opWord 0xF#4 arg)

end Sys2Proof.Machine
end

