-- ==== Sys2Proof/Machine/Transmit.lean ====
section
/-! DEFINITION. The transmit path (43_transmit): SEND_PACKET and its two short forms. -/

namespace Sys2Proof.Machine

/-- Frame a packet and write it as one TxWrite, or reject it and write nothing (43_transmit R115, R118). -/
def sendFrame (t : Byte) (data : List Byte) (s : State) : Host.Outcome State Fault Refusal :=
  match encodeFn checksumFn s.capacity t data with
  | .ok frame => finish (.sent .ok) (s.txWrite frame)
  | .rejected => finish (.sent .rejected) s

/-- SEND_PACKET of the operation word `w` (43_transmit R115): the word is what a refusal records. -/
def sendGeneral (w : OpWord) (t len : Byte) (data : List Byte) (s : State) : Host.Outcome State Fault Refusal :=
  andThen (sendOperands w len data) fun data => sendFrame t data s

/-- SEND_PACKET (43_transmit R115). -/
def execSendPacket (t len : Byte) (data : List Byte) (s : State) : Host.Outcome State Fault Refusal :=
  sendGeneral (opWord 0x8#4 t) t len data s

/-- SEND_PACKET0 (43_transmit R116): `SEND_PACKET t, 0x00, []`. -/
def execSendPacket0 (t : Byte) (s : State) : Host.Outcome State Fault Refusal :=
  sendGeneral (opWord 0x6#4 t) t 0x00#8 [] s

/-- SEND_PACKET1 (43_transmit R117): `SEND_PACKET t, 0x01, [D]`. -/
def execSendPacket1 (t d : Byte) (s : State) : Host.Outcome State Fault Refusal :=
  sendGeneral (opWord 0x7#4 t) t 0x01#8 [d] s

end Sys2Proof.Machine
end

