-- ==== Sys2Proof/Machine/Dispatch.lean ====
section
/-! DEFINITION. One arm per instruction: the call of its meaning. -/

namespace Sys2Proof.Machine

/-- The meaning of an instruction. -/
def exec (i : Instr) (s : State) : Host.Outcome State Fault Refusal :=
  match i with
  | .processInput => Sys2Proof.Machine.execProcessInput s
  | .reset => Sys2Proof.Machine.execReset s
  | .getState => Sys2Proof.Machine.execGetState s
  | .getPacket => Sys2Proof.Machine.execGetPacket s
  | .pktHasData => Sys2Proof.Machine.execPktHasData s
  | .pktReadData idx => Sys2Proof.Machine.execPktReadData idx s
  | .sendPacket0 t => Sys2Proof.Machine.execSendPacket0 t s
  | .sendPacket1 t d => Sys2Proof.Machine.execSendPacket1 t d s
  | .sendPacket t len data => Sys2Proof.Machine.execSendPacket t len data s
  | .checksum bytes => Sys2Proof.Machine.execChecksum bytes s
  | .encodeFrame t data => Sys2Proof.Machine.execEncode t data s
  | .decodeFrame bytes => Sys2Proof.Machine.execDecode bytes s
  | .hasPacket => Sys2Proof.Machine.execHasPacket s
  | .reservedD arg => Sys2Proof.Machine.execReservedD arg s
  | .reservedE arg => Sys2Proof.Machine.execReservedE arg s
  | .reservedF arg => Sys2Proof.Machine.execReservedF arg s
  | .sp1Pre1 => Sys2Proof.Machine.execSp1Pre1 s
  | .sp1Other b => Sys2Proof.Machine.execSp1Other b s
  | .sp2Pre2 => Sys2Proof.Machine.execSp2Pre2 s
  | .sp2Pre1 => Sys2Proof.Machine.execSp2Pre1 s
  | .sp2Other b => Sys2Proof.Machine.execSp2Other b s
  | .rcStore b => Sys2Proof.Machine.execRcStore b s
  | .rcOverflow b => Sys2Proof.Machine.execRcOverflow b s
  | .rcEnd b => Sys2Proof.Machine.execRcEnd b s
  | .spo1Post1 => Sys2Proof.Machine.execSpo1Post1 s
  | .spo1Other b => Sys2Proof.Machine.execSpo1Other b s
  | .spo2Post2Ok => Sys2Proof.Machine.execSpo2Post2Ok s
  | .spo2Post2Bad => Sys2Proof.Machine.execSpo2Post2Bad s
  | .spo2Other b => Sys2Proof.Machine.execSpo2Other b s
  | .boPre1 => Sys2Proof.Machine.execBoPre1 s
  | .boOther b => Sys2Proof.Machine.execBoOther b s
  | .illegalState low b => Sys2Proof.Machine.execIllegalState low b s

end Sys2Proof.Machine
end

