-- ==== Sys2Proof/Machine/Issue.lean ====
section
/-! DEFINITION. What one step of the machine does: it takes the environment's next move (30_encoding R74), decodes a
host call and runs it, or lets the transport append; and how a word of the opcode table is placed where the next step
takes it. -/

namespace Sys2Proof.Machine

/-- A host call: its word is decoded, and the instruction runs (30_encoding R69 to R72, 60_exceptions R131). -/
def issue (c : HostCall) (s : State) : Host.Outcome State Fault Refusal :=
  match decodeHost c with
  | .ok i => exec i s
  | .error (.nonzeroArg w) => .refused (.nonzeroArg w)

/-- One move of the environment. With no move to come nothing happens (log entry 5). -/
def move (s : State) : Host.Outcome State Fault Refusal :=
  match s.script with
  | [] => .next s
  | .call c :: _ => issue c s.moved
  | .rx bs :: _ => .next (s.moved.received bs)

/-- No operation steps from a state with a mark set (60_exceptions R125, R127); from any other, the next move. -/
def moveUnlessMarked (s : State) : Host.Outcome State Fault Refusal :=
  match s.faultMark with
  | some f => .fault f
  | none =>
    match s.refusedMark with
    | some r => .refused r
    | none => move s

/-- The state with a host call as its next move. -/
def withCall (c : HostCall) (s : State) : State := { s with script := .call c :: s.script }

/-- The state in which a receive key comes up next: its STATE is the parse state, its byte all that RXQ holds, no
arrival follows it, and the next move is PROCESS_INPUT, the only operation that runs a receive row (40_receive R76). -/
def withKey (k : RxKey) (s : State) : State :=
  withCall { word := opWord 0x0#4 0#8 }
    { s with state := keyState k, rxq := [keyByte k], arrivals := [], endless := false }

/-- Place a table word where the next step takes it, by the word space `decodeTableWord` reads it in (log entry 8). -/
def placeWord (s : State) (nbits w : Nat) : State :=
  if nbits ≤ 11 then withKey (BitVec.ofNat 11 w) s
  else if nbits = 12 then withCall (tableCall w) s
  else
    match decodeTableHost w with
    | some _ => withCall (tableCall w) s
    | none => if w < 2048 then withKey (BitVec.ofNat 11 w) s else withCall (tableCall w) s

end Sys2Proof.Machine
end

