-- ==== Sys2Proof/Machine/Step.lean ====
section
/-! DEFINITION. The step of the machine, the state it leaves with the marks, and the placing of a table word. -/

namespace Sys2Proof.Machine

/-- One step: one host operation, or one append of the transport (00_scope R6, 20_memory R45, R48). The receive steps
run inside PROCESS_INPUT (40_receive R76, R77). -/
def step (s : State) : Host.Outcome State Fault Refusal := moveUnlessMarked s

/-- The state after one step with the marks FAULT and REFUSED recorded (10_state R32). -/
def tick (s : State) : State := settle s (step s)

/-- The state with a table word placed where `step` takes its next instruction. -/
def State.withFetchWord (s : State) (nbits w : Nat) : State := placeWord s nbits w

end Sys2Proof.Machine
end

