-- ==== Sys2Proof/Safety.lean ====
section
/-! DEFINITION. What counts as a sound state and a safe run: the invariants INV1 to INV7 of 10_state R33 with the
form of the buffer, the inputs the laws of 40_receive R96 and R97 admit, what a caller can tell apart (10_state R35,
70_reset R143), and runs of the machine as a caller sees them. -/

namespace Sys2Proof.Machine

/-- `N = zext(BUF[3])` (10_state R33). -/
abbrev State.n (s : State) : Nat := (s.buf.read 3).toNat

/-- CAPACITY is legal (00_scope R8), and the buffer is in its canonical form and holds no index at or above it. -/
abbrev InvForm (s : State) : Prop :=
  7 ≤ s.capacity ∧ s.buf.wf = true ∧ s.buf.below s.capacity = true

/-- INV1 (10_state R33). -/
abbrev Inv1 (s : State) : Prop := s.cursor = s.usedLen ∧ s.usedLen ≤ s.capacity

/-- INV2 (10_state R33). -/
abbrev Inv2 (s : State) : Prop := s.state = Config.sp2 → s.cursor = 1 ∧ s.buf.read 0 = 0xF0#8

/-- INV3 (10_state R33). -/
abbrev Inv3 (s : State) : Prop :=
  s.state = Config.rc →
    s.buf.read 0 = 0xF0#8 ∧ s.buf.read 1 = 0xCA#8 ∧
      ((s.cursor = 2 ∨ s.cursor = 3) ∨ (4 ≤ s.cursor ∧ s.cursor ≤ 4 + s.n ∧ 7 + s.n ≤ s.capacity))

/-- INV4 (10_state R33). -/
abbrev Inv4 (s : State) : Prop :=
  (s.state = Config.spo1 →
    s.cursor = 5 + s.n ∧ 7 + s.n ≤ s.capacity ∧ s.buf.read 0 = 0xF0#8 ∧ s.buf.read 1 = 0xCA#8) ∧
  (s.state = Config.spo2 →
    s.cursor = 6 + s.n ∧ s.buf.read (5 + s.n) = 0x53#8 ∧ 7 + s.n ≤ s.capacity ∧
      s.buf.read 0 = 0xF0#8 ∧ s.buf.read 1 = 0xCA#8)

/-- The current Packet, its data read from the view `BUF[4 .. 4 + PKT_LEN)` (10_state R23, R26). -/
def State.currentPacket (s : State) : Packet := ⟨s.pktType, s.pktLen, s.buf.span 4 s.pktLen.toNat⟩

/-- INV5 (10_state R33). -/
abbrev Inv5 (s : State) : Prop :=
  s.pktValid = true →
    s.state = Config.sp1 ∧ s.cursor = 7 + s.pktLen.toNat ∧
      wellFormedFrame s.capacity (s.buf.span 0 (7 + s.pktLen.toNat)) = true ∧
      s.buf.read 2 = s.pktType ∧ s.buf.read 3 = s.pktLen ∧
      s.publog.getLast? = some s.currentPacket

/-- INV7 (10_state R33): the parse state is one of the six legal codes. INV6 is about steps, not states. -/
abbrev Inv7 (s : State) : Prop := s.state.toNat ≤ 5

/-- The invariant of the machine (10_state R33). -/
abbrev Inv (s : State) : Prop :=
  InvForm s ∧ Inv1 s ∧ Inv2 s ∧ Inv3 s ∧ Inv4 s ∧ Inv5 s ∧ Inv7 s

/-- No mark is set, so the machine may step (10_state R32). -/
abbrev Unmarked (s : State) : Prop := s.faultMark = none ∧ s.refusedMark = none

/-- The machine hunts outside a frame: SearchPreamble1 or BufferOverflow (40_receive R96). -/
abbrev Hunting (s : State) : Prop := s.state = Config.sp1 ∨ s.state = Config.bo

/-- No adjacent pair `F0 CA` occurs (40_receive R96, R97). -/
def noPreamblePair (bs : List Byte) : Bool :=
  match bs with
  | [] => true
  | b :: rest => !(b == Config.preamble1 && rest.head? == some Config.preamble2) && noPreamblePair rest

/-- The machine given its bytes in chunks, each appended to RXQ before a PROCESS_INPUT of its own (40_receive R77:
a frame may be split across calls). -/
def feedCalls (chunks : List (List Byte)) (s : State) : Host.Outcome State Fault Refusal :=
  match chunks with
  | [] => .next s
  | bs :: rest => andThen (exec .processInput (s.received bs)) (feedCalls rest)

/-- The buffer holds bytes that a rule may still read: those below CURSOR, while a frame is being received or a Packet
is valid (10_state R20, R35). -/
def State.live (s : State) : Bool :=
  s.pktValid || (decide (s.state ≠ Config.sp1) && decide (s.state ≠ Config.bo))

/-- Two states no host result tells apart: they differ at most in buffer bytes nothing can read, in the type and length
of a Packet that is not valid, and in the logs, which no operation reads (10_state R31, R35; 70_reset R143). The second
buffer is in canonical form too. -/
def SameToCaller (s t : State) : Prop :=
  t.buf.wf = true ∧
  t = { s with buf := t.buf, pktType := t.pktType, pktLen := t.pktLen, txlog := t.txlog, publog := t.publog,
               trace := t.trace } ∧
  (s.live = true → ∀ i, i < s.cursor → s.buf.read i = t.buf.read i) ∧
  (s.pktValid = true → s.pktType = t.pktType ∧ s.pktLen = t.pktLen)

/-- Two outcomes stop for the same reason, or both go on to states that `R` relates. -/
def OutcomesAgree (R : State → State → Prop) (o p : Host.Outcome State Fault Refusal) : Prop :=
  match o, p with
  | .next a, .next b => R a b
  | .fault f, .fault g => f = g
  | .refused r, .refused q => r = q
  | _, _ => False

/-- What a caller sees of a state: the last result, and the marks. -/
def State.seen (s : State) : Option Result × Option Fault × Option Refusal :=
  (s.result, s.faultMark, s.refusedMark)

/-- What a caller sees after each of `k` steps. -/
def observed (k : Nat) (s : State) : List (Option Result × Option Fault × Option Refusal) :=
  match k with
  | 0 => []
  | j + 1 => (tick s).seen :: observed j (tick s)

/-- Where a receive row stores its byte: index 0 for a row that starts a frame, CURSOR for every other row that stores,
and nowhere for a row that discards (40_receive R78 to R92). -/
def storeIndex (i : Instr) (s : State) : Option Nat :=
  match i with
  | .processInput => none
  | .reset => none
  | .getState => none
  | .getPacket => none
  | .pktHasData => none
  | .pktReadData _ => none
  | .sendPacket0 _ => none
  | .sendPacket1 _ _ => none
  | .sendPacket _ _ _ => none
  | .checksum _ => none
  | .encodeFrame _ _ => none
  | .decodeFrame _ => none
  | .hasPacket => none
  | .reservedD _ => none
  | .reservedE _ => none
  | .reservedF _ => none
  | .sp1Pre1 => some 0
  | .sp1Other _ => none
  | .sp2Pre2 => some s.cursor
  | .sp2Pre1 => some 0
  | .sp2Other _ => none
  | .rcStore _ => some s.cursor
  | .rcOverflow _ => some s.cursor
  | .rcEnd _ => some s.cursor
  | .spo1Post1 => some s.cursor
  | .spo1Other _ => none
  | .spo2Post2Ok => some s.cursor
  | .spo2Post2Bad => some s.cursor
  | .spo2Other _ => none
  | .boPre1 => some 0
  | .boOther _ => none
  | .illegalState _ _ => none

end Sys2Proof.Machine
end

