-- ==== Sys2Proof/Certificates/Slice0/Obligations.lean ====
section
/-! DEFINITION. The statements about the framer, each formalising numbered rules of spec/. Equations of a whole next
state say what an instruction writes and, by the update they name, that it leaves everything else unchanged. -/

open Sys2Proof Sys2Proof.Machine

/-! ### Encodings -/

/-- Words written out bit by bit from 30_encoding R68 to R70 decode to the instructions they stand for. -/
def Obligations.SampleWordsDecode : Prop :=
  decodeHost { word := 0b000000000000#12 } = .ok .processInput ∧
  decodeHost { word := 0b010100010010#12 } = .ok (.pktReadData 0x12#8) ∧
  decodeHost { word := 0b011100000001#12, d := 0x05#8 } = .ok (.sendPacket1 0x01#8 0x05#8) ∧
  decodeHost { word := 0b100100000000#12, list := [0x80#8] } = .ok (.checksum [0x80#8]) ∧
  decodeHost { word := 0b111100010010#12 } = .ok (.reservedF 0x12#8) ∧
  decodeKey 0b00011110000#11 noCond = .sp1Pre1 ∧
  decodeKey 0b00111001010#11 noCond = .sp2Pre2 ∧
  decodeKey 0b01000000001#11 noCond = .rcStore 0x01#8 ∧
  decodeKey 0b10100000000#11 noCond = .boOther 0x00#8

/-- Decoding the encoding of a well-formed instruction gives it back, with every operand, for all 32 rows
(30_encoding R68, R70). A receive row that shares its key with others is given back under its own condition. -/
def Obligations.DecodeOfEncodeIsIdentity : Prop :=
  ∀ (i : Instr) (c : RxCond), i.wellFormed = true → i.condHolds c = true → decode (encode i) c = .ok i

/-- Encoding what was decoded gives the word back: no bit of a host word or of a key is dropped, and what a key decodes
to is well-formed (30_encoding R68, R69). -/
def Obligations.EncodeOfDecodeKeepsTheWord : Prop :=
  (∀ (c : HostCall) (i : Instr), decodeHost c = .ok i →
    i.isRxRow = false ∧ ∃ c', encode i = .host c' ∧ c'.word = c.word) ∧
  (∀ (k : RxKey) (c : RxCond),
    encode (decodeKey k c) = .key k ∧ (decodeKey k c).wellFormed = true ∧ (decodeKey k c).condHolds c = true)

/-- For every key and every condition on the buffer exactly one row of the table of 30_encoding R68 applies, and it is
the one the decoder selects. -/
def Obligations.ExactlyOneRowApplies : Prop :=
  ∀ (k : RxKey) (c : RxCond), rowsThatApply k c = [rowOfKey k c]

/-- The four refusals of 60_exceptions R126, each where its condition holds, whatever the state: the reserved operation
codes (30_encoding R72) as instructions and as words at the step, nonzero arguments at the step, R_OPERAND at
SEND_PACKET, R_READ_EMPTY at the read of an empty queue. What each records is log entry 13. -/
def Obligations.TheFourRefusals : Prop :=
  (∀ (arg : Byte) (s : State),
    exec (.reservedD arg) s = .refused (.reservedOp (0xD#4 ++ arg)) ∧
    exec (.reservedE arg) s = .refused (.reservedOp (0xE#4 ++ arg)) ∧
    exec (.reservedF arg) s = .refused (.reservedOp (0xF#4 ++ arg))) ∧
  (∀ (s : State) (c : HostCall) (rest : List Move), Unmarked s → s.script = .call c :: rest →
    (0xD ≤ (opOf c.word).toNat → step s = .refused (.reservedOp c.word)) ∧
    (opOf c.word ∈ [0x0#4, 0x1#4, 0x2#4, 0x3#4, 0x4#4, 0x9#4, 0xB#4, 0xC#4] → argOf c.word ≠ 0#8 →
      step s = .refused (.nonzeroArg c.word))) ∧
  (∀ (s : State) (t len : Byte) (data : List Byte), data.length ≠ len.toNat →
    exec (.sendPacket t len data) s = .refused (.operand (0x8#4 ++ t) len data.length)) ∧
  (∀ s : State, s.rxq = [] → rxRead s = .refused .readEmpty)

/-- The row of the illegal codes 6 and 7 stops with F_ILLEGAL_STATE, recording STATE and the byte (40_receive R76,
60_exceptions R124); a receive step in such a state runs it. -/
def Obligations.IllegalStateFaults : Prop :=
  (∀ (low : BitVec 1) (b : Byte) (s : State),
    exec (.illegalState low b) s = .fault (.illegalState (0x3#2 ++ low) b)) ∧
  (∀ (b : Byte) (s : State), 6 ≤ s.state.toNat → rxStep b s = .fault (.illegalState s.state b))

/-! ### The step -/

/-- A step runs the instruction that the caller's next word decodes to, on the state with that call taken; a `.rx` line
appends to RXQ; with nothing to come nothing happens (30_encoding R69, R74). The order of the moves is the model's
field `script` (log entry 5). -/
def Obligations.StepRunsTheDecodedInstruction : Prop :=
  (∀ (s : State) (c : HostCall) (rest : List Move) (i : Instr), Unmarked s → s.script = .call c :: rest →
    decodeHost c = .ok i → step s = exec i { s with script := rest }) ∧
  (∀ (s : State) (bs : List Byte) (rest : List Move), Unmarked s → s.script = .rx bs :: rest →
    step s = .next { s with script := rest, rxq := s.rxq ++ bs }) ∧
  (∀ s : State, Unmarked s → s.script = [] → step s = .next s)

/-- A receive step runs the row that its key decodes to under the conditions of the buffer (30_encoding R68,
40_receive R76). -/
def Obligations.ReceiveStepRunsTheDecodedRow : Prop :=
  ∀ (b : Byte) (s : State) (c : RxCond), rxCond b s = .next c →
    rxStep b s = exec (decodeKey (rxKey s.state b) c) s

/-- RX_STEP is the case table of 40_receive R76: one row for each state and byte, in the order of its tests. The
premise is the model's invariant; the illegal codes need none. No host word runs a receive row. -/
def Obligations.RxStepIsTheCaseTable : Prop :=
  (∀ (b : Byte) (s : State), Inv s →
    rxStep b s =
      if s.state = 0#3 then
        if b = 0xF0#8 then exec .sp1Pre1 s else exec (.sp1Other b) s
      else if s.state = 1#3 then
        if b = 0xCA#8 then exec .sp2Pre2 s else if b = 0xF0#8 then exec .sp2Pre1 s else exec (.sp2Other b) s
      else if s.state = 2#3 then
        if s.cursor + 1 = 4 ∧ s.capacity < 7 + (s.stored b).n then exec (.rcOverflow b) s
        else if 5 ≤ s.cursor + 1 ∧ s.cursor + 1 = 5 + (s.stored b).n then exec (.rcEnd b) s
        else exec (.rcStore b) s
      else if s.state = 3#3 then
        if b = 0x53#8 then exec .spo1Post1 s else exec (.spo1Other b) s
      else if s.state = 4#3 then
        if b = 0x0F#8 then
          if s.buf.read (4 + s.n) = checksumFn (s.buf.span 2 (2 + s.n)) then exec .spo2Post2Ok s
          else exec .spo2Post2Bad s
        else exec (.spo2Other b) s
      else if b = 0xF0#8 then exec .boPre1 s else exec (.boOther b) s) ∧
  (∀ (b : Byte) (s : State), 6 ≤ s.state.toNat → rxStep b s = .fault (.illegalState s.state b)) ∧
  (∀ (c : HostCall) (i : Instr), decodeHost c = .ok i → i.isRxRow = false)

/-! ### The receive rows -/

/-- SP1_PRE1 (40_receive R78). -/
def Obligations.Sp1Pre1StartsAFrame : Prop :=
  ∀ s : State,
    (7 ≤ s.capacity →
      exec .sp1Pre1 s = .next { s with cursor := 1, usedLen := 1, buf := s.buf.write 0 0xF0#8, pktValid := false,
                                       state := 1#3 }) ∧
    (s.state = 0#3 → rxStep 0xF0#8 s = exec .sp1Pre1 s)

/-- SP1_OTHER (40_receive R79) and BO_OTHER (R92): the byte is discarded, a CA included, and nothing changes. -/
def Obligations.HuntingRowsDiscard : Prop :=
  ∀ (b : Byte) (s : State),
    exec (.sp1Other b) s = .next s ∧
    exec (.boOther b) s = .next s ∧
    (s.state = 0#3 → b ≠ 0xF0#8 → rxStep b s = exec (.sp1Other b) s) ∧
    (s.state = 5#3 → b ≠ 0xF0#8 → rxStep b s = exec (.boOther b) s)

/-- SP2_PRE2 (40_receive R80); with CURSOR = 1 on entry, by INV2, the byte goes to index 1. -/
def Obligations.Sp2Pre2CompletesThePreamble : Prop :=
  ∀ s : State,
    (s.cursor < s.capacity →
      exec .sp2Pre2 s = .next { s with buf := s.buf.write s.cursor 0xCA#8, cursor := s.cursor + 1,
                                       usedLen := s.cursor + 1, pktValid := false, state := 2#3 }) ∧
    (s.state = 1#3 → rxStep 0xCA#8 s = exec .sp2Pre2 s) ∧
    (Inv s → s.state = 1#3 →
      rxStep 0xCA#8 s = .next { s with buf := s.buf.write 1 0xCA#8, cursor := 2, usedLen := 2, state := 2#3 })

/-- SP2_PRE1 (40_receive R81): the same effect as SP1_PRE1, with the trace FRAMING. -/
def Obligations.Sp2Pre1RestartsThePreamble : Prop :=
  ∀ s : State,
    (7 ≤ s.capacity →
      exec .sp2Pre1 s = .next { s with cursor := 1, usedLen := 1, buf := s.buf.write 0 0xF0#8, pktValid := false,
                                       state := 1#3, trace := s.trace ++ [⟨.framing, .sp2Pre1⟩] }) ∧
    (s.state = 1#3 → rxStep 0xF0#8 s = exec .sp2Pre1 s)

/-- SP2_OTHER (40_receive R82). -/
def Obligations.Sp2OtherBreaksThePreamble : Prop :=
  ∀ (b : Byte) (s : State),
    exec (.sp2Other b) s = .next { s with state := 0#3, trace := s.trace ++ [⟨.framing, .sp2Other⟩] } ∧
    (s.state = 1#3 → b ≠ 0xCA#8 → b ≠ 0xF0#8 → rxStep b s = exec (.sp2Other b) s)

/-- RC_STORE (40_receive R83): stored whatever its value, when neither R84's nor R85's condition holds after the store;
before the store CURSOR is at most CAPACITY − 3. The premise on the selection is the model's invariant. -/
def Obligations.RcStoreStoresAndStays : Prop :=
  ∀ (b : Byte) (s : State),
    (s.cursor < s.capacity →
      exec (.rcStore b) s = .next { s with buf := s.buf.write s.cursor b, cursor := s.cursor + 1,
                                           usedLen := s.cursor + 1, pktValid := false }) ∧
    (Inv s → s.state = 2#3 →
      s.cursor + 3 ≤ s.capacity ∧
      (¬ (s.cursor = 3 ∧ s.capacity < 7 + b.toNat) → ¬ (4 ≤ s.cursor ∧ s.cursor = 4 + s.n) →
        rxStep b s = exec (.rcStore b) s))

/-- RC_OVERFLOW (40_receive R84): the byte just stored is LENGTH, at index 3, and `7 + N > CAPACITY`. -/
def Obligations.RcOverflowOnOversizedLength : Prop :=
  ∀ (b : Byte) (s : State),
    (s.cursor < s.capacity →
      exec (.rcOverflow b) s = .next { s with buf := s.buf.write s.cursor b, cursor := s.cursor + 1,
                                              usedLen := s.cursor + 1, pktValid := false, state := 5#3,
                                              trace := s.trace ++ [⟨.overflow, .rcOverflow⟩] }) ∧
    (Inv s → s.state = 2#3 → s.cursor = 3 → s.capacity < 7 + b.toNat → rxStep b s = exec (.rcOverflow b) s)

/-- RC_END (40_receive R85): the byte just stored is CHECKSUM, at index `4 + N`. -/
def Obligations.RcEndAfterTheChecksum : Prop :=
  ∀ (b : Byte) (s : State),
    (s.cursor < s.capacity →
      exec (.rcEnd b) s = .next { s with buf := s.buf.write s.cursor b, cursor := s.cursor + 1,
                                         usedLen := s.cursor + 1, pktValid := false, state := 3#3 }) ∧
    (Inv s → s.state = 2#3 → 4 ≤ s.cursor → s.cursor = 4 + s.n →
      rxStep b s = exec (.rcEnd b) s ∧ 5 + s.n ≤ s.capacity - 2)

/-- SPO1_POST1 (40_receive R86); with CURSOR = 5 + N on entry, by INV4, the byte goes to index 5 + N. -/
def Obligations.Spo1Post1StoresThePostamble : Prop :=
  ∀ s : State,
    (s.cursor < s.capacity →
      exec .spo1Post1 s = .next { s with buf := s.buf.write s.cursor 0x53#8, cursor := s.cursor + 1,
                                         usedLen := s.cursor + 1, pktValid := false, state := 4#3 }) ∧
    (s.state = 3#3 → rxStep 0x53#8 s = exec .spo1Post1 s) ∧
    (Inv s → s.state = 3#3 →
      rxStep 0x53#8 s = .next { s with buf := s.buf.write (5 + s.n) 0x53#8, cursor := 6 + s.n, usedLen := 6 + s.n,
                                       state := 4#3 })

/-- SPO1_OTHER (40_receive R87) and SPO2_OTHER (R90): a wrong postamble byte, an F0 included, drops the frame. -/
def Obligations.WrongPostambleDropsTheFrame : Prop :=
  ∀ (b : Byte) (s : State),
    exec (.spo1Other b) s = .next { s with state := 0#3, trace := s.trace ++ [⟨.framing, .spo1Other⟩] } ∧
    exec (.spo2Other b) s = .next { s with state := 0#3, trace := s.trace ++ [⟨.framing, .spo2Other⟩] } ∧
    (s.state = 3#3 → b ≠ 0x53#8 → rxStep b s = exec (.spo1Other b) s) ∧
    (s.state = 4#3 → b ≠ 0x0F#8 → rxStep b s = exec (.spo2Other b) s)

/-- SPO2_POST2_OK (40_receive R88) with Publish (R93); it is the row for 0F when the checksum matches. That the row is
SPO2_POST2_BAD when it differs is Spo2Post2BadDropsSilently. The premise is the model's invariant. -/
def Obligations.Spo2Post2OkPublishes : Prop :=
  ∀ s : State, Inv s → s.state = 4#3 →
    exec .spo2Post2Ok s =
      .next { s with buf := s.buf.write (6 + s.n) 0x0F#8, cursor := 7 + s.n, usedLen := 7 + s.n, pktValid := true,
                     pktType := s.buf.read 2, pktLen := s.buf.read 3,
                     publog := s.publog ++ [⟨s.buf.read 2, s.buf.read 3, s.buf.span 4 s.n⟩], state := 0#3 } ∧
    (s.buf.read (4 + s.n) = checksumFn (s.buf.span 2 (2 + s.n)) → rxStep 0x0F#8 s = exec .spo2Post2Ok s)

/-- SPO2_POST2_BAD (40_receive R89). -/
def Obligations.Spo2Post2BadDropsSilently : Prop :=
  ∀ s : State,
    (s.cursor < s.capacity →
      exec .spo2Post2Bad s = .next { s with buf := s.buf.write s.cursor 0x0F#8, cursor := s.cursor + 1,
                                            usedLen := s.cursor + 1, pktValid := false, state := 0#3,
                                            trace := s.trace ++ [⟨.checksum, .spo2Post2Bad⟩] }) ∧
    (Inv s → s.state = 4#3 → s.buf.read (4 + s.n) ≠ checksumFn (s.buf.span 2 (2 + s.n)) →
      rxStep 0x0F#8 s = exec .spo2Post2Bad s ∧ s.cursor = 6 + s.n ∧ s.cursor < s.capacity)

/-- BO_PRE1 (40_receive R91): exactly SP1_PRE1. -/
def Obligations.BoPre1StartsAFrame : Prop :=
  ∀ s : State,
    exec .boPre1 s = exec .sp1Pre1 s ∧
    (7 ≤ s.capacity →
      exec .boPre1 s = .next { s with cursor := 1, usedLen := 1, buf := s.buf.write 0 0xF0#8, pktValid := false,
                                      state := 1#3 }) ∧
    (s.state = 5#3 → rxStep 0xF0#8 s = exec .boPre1 s)

/-- The frame of the fifteen receive rows: a row that answers changes only the block's own fields and the logs of
publications and absorbed errors, and every byte of the buffer outside the one index it stores to reads as before; a
row that stores nothing leaves the buffer, CURSOR, USED_LEN, the Packet and PUBLOG (40_receive R78 to R92). -/
def Obligations.ReceiveRowsChangeOneByte : Prop :=
  ∀ (i : Instr) (s t : State), i.isRxRow = true → exec i s = .next t →
    t = { s with state := t.state, cursor := t.cursor, usedLen := t.usedLen, buf := t.buf, pktValid := t.pktValid,
                 pktType := t.pktType, pktLen := t.pktLen, publog := t.publog, trace := t.trace } ∧
    (∀ a : Nat, storeIndex i s = some a →
      a < s.capacity ∧ t.cursor = a + 1 ∧ t.usedLen = a + 1 ∧ ∀ x : Nat, x ≠ a → t.buf.read x = s.buf.read x) ∧
    (storeIndex i s = none →
      t = { s with state := t.state, trace := t.trace }) ∧
    (i ≠ .spo2Post2Ok →
      t.publog = s.publog ∧ t.pktType = s.pktType ∧ t.pktLen = s.pktLen ∧ (t.pktValid = true → s.pktValid = true))

/-- The lifetime of the Packet (10_state R23): a receive step that leaves PKT_VALID = 1 either published just now, or
stored nothing and found it 1. -/
def Obligations.StoresEndThePacketView : Prop :=
  ∀ (b : Byte) (s t : State), rxStep b s = .next t → t.pktValid = true →
    t.publog = s.publog ++ [⟨t.pktType, t.pktLen, t.buf.span 4 t.pktLen.toNat⟩] ∨
    (s.pktValid = true ∧ t.buf = s.buf ∧ t.cursor = s.cursor ∧ t.pktType = s.pktType ∧ t.pktLen = s.pktLen ∧
      t.publog = s.publog)

/-! ### PROCESS_INPUT -/

/-- PROCESS_INPUT completes in every invariant state whose transport stops: it answers a next state with RXQ empty and
the result unit; on an empty queue it returns at once and changes no state (40_receive R77, 20_memory R46). A transport
that never lets the queue run empty keeps it from returning (R77, D18): the machine is stuck by name and stays so. Which
transport stops is the model's field `endless` (log entry 6). -/
def Obligations.ProcessInputDrainsTheQueue : Prop :=
  ∀ s : State,
    decodeHost { word := 0x000#12 } = .ok .processInput ∧
    (Inv s → s.endless = false → ∃ t, exec .processInput s = .next t ∧ t.rxq = [] ∧ t.result = some .unit) ∧
    (s.rxq = [] → exec .processInput s = .next { s with result := some .unit }) ∧
    (Inv s → s.endless = true → s.arrivals = [] → s.rxq ≠ [] →
      exec .processInput s = .fault .neverReturns ∧
      (Unmarked s → step s = .fault .neverReturns → tick s = s))

/-- PROCESS_INPUT passes every byte it reads to exactly one RX_STEP, in the order of the queue: those in RXQ and then
those the transport appended after a receive step; it writes the block, RXQ, the logs of publications and absorbed
errors and its result, and nothing else (40_receive R77, R94; 20_memory R48). What arrives when is the model's field
`arrivals` (log entry 6). -/
def Obligations.ProcessInputFeedsEachByteOnce : Prop :=
  ∀ s t : State, exec .processInput s = .next t →
    (∃ (k : Nat) (u : State), k ≤ s.arrivals.length ∧
      k = min (s.rxq ++ (s.arrivals.take k).flatten).length s.arrivals.length ∧
      feed (s.rxq ++ (s.arrivals.take k).flatten) { s with rxq := [] } = .next u ∧
      t = { u with arrivals := s.arrivals.drop k, result := some .unit }) ∧
    t.capacity = s.capacity ∧ t.txlog = s.txlog ∧ t.faultMark = s.faultMark ∧ t.refusedMark = s.refusedMark ∧
    t.script = s.script ∧ t.endless = s.endless

/-- A frame may be split across PROCESS_INPUT calls with no effect on the result (40_receive R77): two calls on two
parts of the input leave the state one call on the whole leaves. -/
def Obligations.SplittingTheInputChangesNothing : Prop :=
  ∀ (s t : State) (xs ys : List Byte), s.arrivals = [] → s.endless = false →
    exec .processInput { s with rxq := xs } = .next t →
    exec .processInput { t with rxq := ys } = exec .processInput { s with rxq := xs ++ ys }

/-! ### Host access -/

/-- GET_STATE (41_host_access R98). -/
def Obligations.GetStateReturnsTheCode : Prop :=
  ∀ s : State,
    decodeHost { word := 0x200#12 } = .ok .getState ∧
    exec .getState s = .next { s with result := some (.stateCode s.state) }

/-- GET_PACKET (41_host_access R99). -/
def Obligations.GetPacketReturnsOrFaults : Prop :=
  ∀ s : State,
    decodeHost { word := 0x300#12 } = .ok .getPacket ∧
    (s.pktValid = true →
      exec .getPacket s = .next { s with result := some (.packet s.pktType s.pktLen (decide (s.pktLen ≠ 0#8))) }) ∧
    (s.pktValid = false → exec .getPacket s = .fault (.noPacket 0x300#12))

/-- PKT_HAS_DATA (41_host_access R100); of an empty Packet it returns false, and every PKT_READ_DATA faults. -/
def Obligations.PktHasDataReturnsOrFaults : Prop :=
  ∀ s : State,
    decodeHost { word := 0x400#12 } = .ok .pktHasData ∧
    (s.pktValid = true → exec .pktHasData s = .next { s with result := some (.bool (decide (s.pktLen ≠ 0#8))) }) ∧
    (s.pktValid = false → exec .pktHasData s = .fault (.noPacket 0x400#12)) ∧
    (s.pktValid = true → s.pktLen = 0#8 → ∀ i : Byte, exec (.pktReadData i) s = .fault (.viewIndex i 0#8))

/-- PKT_READ_DATA (41_host_access R101): F_NO_PACKET first, then F_VIEW_INDEX, else the byte `BUF[4 + i]`, which is byte
`i` of the data of the last PUBLOG entry. The premise of the last clause is the model's invariant. -/
def Obligations.PktReadDataReadsTheView : Prop :=
  ∀ (i : Byte) (s : State),
    decodeHost { word := 0x5#4 ++ i } = .ok (.pktReadData i) ∧
    (s.pktValid = false → exec (.pktReadData i) s = .fault (.noPacket (0x5#4 ++ i))) ∧
    (s.pktValid = true → s.pktLen.toNat ≤ i.toNat → exec (.pktReadData i) s = .fault (.viewIndex i s.pktLen)) ∧
    (Inv s → s.pktValid = true → i.toNat < s.pktLen.toNat →
      exec (.pktReadData i) s = .next { s with result := some (.byte (s.buf.read (4 + i.toNat))) } ∧
      4 + s.pktLen.toNat ≤ s.capacity - 3 ∧
      ∃ p, s.publog.getLast? = some p ∧ p.data[i.toNat]? = some (s.buf.read (4 + i.toNat)))

/-- HAS_PACKET (41_host_access R141); when it returns true, GET_PACKET, PKT_HAS_DATA and PKT_READ_DATA below PKT_LEN do
not fault. The premise of that clause is the model's invariant. -/
def Obligations.HasPacketTellsBeforehand : Prop :=
  ∀ s : State,
    decodeHost { word := 0xC00#12 } = .ok .hasPacket ∧
    exec .hasPacket s = .next { s with result := some (.bool s.pktValid) } ∧
    (Inv s → exec .hasPacket s = .next { s with result := some (.bool true) } →
      (∃ t, exec .getPacket s = .next t) ∧ (∃ t, exec .pktHasData s = .next t) ∧
      ∀ i : Byte, i.toNat < s.pktLen.toNat → ∃ t, exec (.pktReadData i) s = .next t)

/-- RESET (41_host_access R102), idempotent. -/
def Obligations.ResetReturnsToHunting : Prop :=
  ∀ s : State,
    decodeHost { word := 0x100#12 } = .ok .reset ∧
    exec .reset s = .next { s with state := 0#3, cursor := 0, usedLen := 0, pktValid := false,
                                   result := some .unit } ∧
    ∀ t, exec .reset s = .next t → exec .reset t = .next t

/-- The five queries and the three pure codec operations change no state: all they leave is their result, and repeating
one gives it again (20_memory R46). -/
def Obligations.QueriesAndCodecChangeNothing : Prop :=
  ∀ (i : Instr) (s t : State),
    (i = .getState ∨ i = .hasPacket ∨ i = .getPacket ∨ i = .pktHasData ∨ (∃ k, i = .pktReadData k) ∨
      (∃ bs, i = .checksum bs) ∨ (∃ ty d, i = .encodeFrame ty d) ∨ (∃ bs, i = .decodeFrame bs)) →
    exec i s = .next t → t = { s with result := t.result } ∧ exec i t = .next t

/-- Only PROCESS_INPUT and RESET among the host operations write the block, and only PROCESS_INPUT the buffer, RXQ and the
logs of the receive side (20_memory R38). -/
def Obligations.HostOperationsLeaveTheReceiver : Prop :=
  ∀ (i : Instr) (s t : State), i.isRxRow = false → i ≠ .processInput → exec i s = .next t →
    t = { s with state := t.state, cursor := t.cursor, usedLen := t.usedLen, pktValid := t.pktValid,
                 txlog := t.txlog, result := t.result } ∧
    (i ≠ .reset → t = { s with txlog := t.txlog, result := t.result })

/-! ### Checksum and codec -/

/-- CHECKSUM (42_codec R104) with CHECKSUM_FN, the 8-bit truncated sum (R103): 0 of no byte, and the same in any order
of the bytes. That the block's checksum is this sum is the spec's own choice (log entry 2). -/
def Obligations.ChecksumOperation : Prop :=
  ∀ (bs : List Byte) (s : State),
    decodeHost { word := 0x900#12, list := bs } = .ok (.checksum bs) ∧
    exec (.checksum bs) s = .next { s with result := some (.byte (checksumFn bs)) } ∧
    (checksumFn bs).toNat = (bs.map BitVec.toNat).sum % 256 ∧
    checksumFn [] = 0x00#8 ∧
    ∀ cs : List Byte, bs.Perm cs → checksumFn bs = checksumFn cs

/-- ENCODE (42_codec R108) with ENCODE_FN (R107): the frame of length `7 + N`, or REJECTED, which is an ordinary
result. -/
def Obligations.EncodeBuildsTheFrame : Prop :=
  ∀ (t : Byte) (d : List Byte) (s : State),
    decodeHost { word := 0xA#4 ++ t, list := d } = .ok (.encodeFrame t d) ∧
    (s.capacity - 7 < d.length ∨ 255 < d.length →
      exec (.encodeFrame t d) s = .next { s with result := some (.encoded .rejected) }) ∧
    (¬ (s.capacity - 7 < d.length ∨ 255 < d.length) →
      ∃ f, f = [0xF0#8, 0xCA#8, t, BitVec.ofNat 8 d.length] ++ d ++
          [checksumFn ([t, BitVec.ofNat 8 d.length] ++ d), 0x53#8, 0x0F#8] ∧
        f.length = 7 + d.length ∧
        exec (.encodeFrame t d) s = .next { s with result := some (.encoded (.ok f)) })

/-- DECODE (42_codec R110) returns the verdict of DECODE_FN at the block's CAPACITY and touches neither the receive buffer
nor the parse state. -/
def Obligations.DecodeOperation : Prop :=
  ∀ (bs : List Byte) (s : State),
    decodeHost { word := 0xB00#12, list := bs } = .ok (.decodeFrame bs) ∧
    exec (.decodeFrame bs) s = .next { s with result := some (.decoded (decodeFn checksumFn s.capacity bs)) }

/-- DECODE_FN by the shape of the list, in the order of its tests (42_codec R109), for every checksum function. -/
def Obligations.DecodeVerdictByShape : Prop :=
  ∀ (ck : List Byte → Byte) (cap : Nat),
    (∀ bs : List Byte, bs.length < 7 → decodeFn ck cap bs = .err .short) ∧
    (∀ (x y : Byte) (rest : List Byte), 5 ≤ rest.length → x ≠ 0xF0#8 ∨ y ≠ 0xCA#8 →
      decodeFn ck cap (x :: y :: rest) = .err .preamble) ∧
    (∀ (t l : Byte) (rest : List Byte), 3 ≤ rest.length → cap < 7 + l.toNat →
      decodeFn ck cap (0xF0#8 :: 0xCA#8 :: t :: l :: rest) = .err .oversize) ∧
    (∀ (t l : Byte) (rest : List Byte), 3 ≤ rest.length → 7 + l.toNat ≤ cap → rest.length ≠ 3 + l.toNat →
      decodeFn ck cap (0xF0#8 :: 0xCA#8 :: t :: l :: rest) = .err .length) ∧
    (∀ (t l c p q : Byte) (d : List Byte), d.length = l.toNat → 7 + l.toNat ≤ cap →
      decodeFn ck cap (0xF0#8 :: 0xCA#8 :: t :: l :: (d ++ [c, p, q])) =
        if p ≠ 0x53#8 ∨ q ≠ 0x0F#8 then .err .postamble
        else if c ≠ ck (t :: l :: d) then .err .checksum
        else .ok ⟨t, l, d⟩)

/-- The round trip of the codec (42_codec R111), for every checksum function and every CAPACITY, and its converse. That
the data has at most 255 bytes is R107's second test, which R111 leaves out (log entry 12). -/
def Obligations.CodecRoundTrip : Prop :=
  ∀ (ck : List Byte → Byte) (cap : Nat), 7 ≤ cap →
    (∀ (t : Byte) (d : List Byte), d.length ≤ cap - 7 → d.length ≤ 255 →
      ∃ f, encodeFn ck cap t d = .ok f ∧ decodeFn ck cap f = .ok ⟨t, BitVec.ofNat 8 d.length, d⟩) ∧
    (∀ (f : List Byte) (p : Packet), decodeFn ck cap f = .ok p →
      encodeFn ck cap p.type p.data = .ok f ∧ p.data.length = p.length.toNat)

/-- What the sum detects (42_codec R113): a change of one byte at TYPE, DATA or CHECKSUM is refused by the decoder, and
the receive machine fed it publishes nothing and ends in SearchPreamble1. The premise is the model's invariant. -/
def Obligations.OneByteCorruptionIsRejected : Prop :=
  ∀ (s : State) (f : List Byte) (p : Packet) (k : Nat) (x : Byte),
    Inv s → s.state = 0#3 → decodeFn checksumFn s.capacity f = .ok p →
    k = 2 ∨ (4 ≤ k ∧ k ≤ 4 + p.length.toNat) → f[k]? ≠ some x →
    decodeFn checksumFn s.capacity (f.set k x) = .err .checksum ∧
    ∃ t, feed (f.set k x) s = .next t ∧ t.publog = s.publog ∧ t.state = 0#3

/-- Decoder and receive machine agree (42_codec R112 (a)): a well-formed frame fed from SearchPreamble1 or
BufferOverflow is published exactly once, at its last byte. The premise is the model's invariant. -/
def Obligations.WellFormedFrameIsPublishedOnce : Prop :=
  ∀ (s : State) (f : List Byte) (p : Packet), Inv s → Hunting s → decodeFn checksumFn s.capacity f = .ok p →
    (∃ u, feed f.dropLast s = .next u ∧ u.publog = s.publog) ∧
    ∃ t, feed f s = .next t ∧ t.publog = s.publog ++ [p] ∧ t.state = 0#3

/-- Decoder and receive machine agree (42_codec R112 (b)) on a list of its declared length that fits the buffer: the
machine publishes the decoder's packet and ends in SearchPreamble1, or nothing where the decoder answers an error.
The condition that it fits is the model's correction of R112 (b) (log entry 12). -/
def Obligations.ReceiverAgreesWithDecoderWhenItFits : Prop :=
  ∀ (s : State) (t l : Byte) (rest : List Byte), Inv s → s.state = 0#3 → rest.length = 3 + l.toNat →
    7 + l.toNat ≤ s.capacity →
    ∃ u, feed (0xF0#8 :: 0xCA#8 :: t :: l :: rest) s = .next u ∧
      match decodeFn checksumFn s.capacity (0xF0#8 :: 0xCA#8 :: t :: l :: rest) with
      | .ok p => u.publog = s.publog ++ [p] ∧ u.state = 0#3
      | .err _ => u.publog = s.publog

/-- R112 (b) as 42_codec words it, oversized lists included. It FAILS: the rest of an oversized frame may hold a whole
frame, which BufferOverflow lets in (90_conflicts C3; log entry 12). -/
def Obligations.ReceiverAgreesWithDecoderAlways : Prop :=
  ∀ (s : State) (t l : Byte) (rest : List Byte), Inv s → s.state = 0#3 → rest.length = 3 + l.toNat →
    ∃ u, feed (0xF0#8 :: 0xCA#8 :: t :: l :: rest) s = .next u ∧
      (u.publog ≠ s.publog ↔
        (decodeFn checksumFn s.capacity (0xF0#8 :: 0xCA#8 :: t :: l :: rest)).isOk = true)

/-! ### Laws of the receive machine -/

/-- Framing is never lost for good (40_receive R95): of any CAPACITY − 2 bytes fed in an invariant state, some prefix
leaves the machine in SearchPreamble1, SearchPreamble2 or BufferOverflow. -/
def Obligations.FramingIsNeverLostForGood : Prop :=
  ∀ (s : State) (bs : List Byte), Inv s → bs.length = s.capacity - 2 →
    ∃ (k : Nat) (t : State), k ≤ s.capacity - 2 ∧ feed (bs.take k) s = .next t ∧
      (t.state = 0#3 ∨ t.state = 1#3 ∨ t.state = 5#3)

/-- The resynchronisation law (40_receive R96): garbage with no adjacent `F0 CA`, then a well-formed frame, split over
PROCESS_INPUT calls in any way, publishes exactly that frame's packet; a RESET between two calls within the garbage
changes nothing. The premise is the model's invariant, with a transport that appends only what the calls are given. -/
def Obligations.ResynchronisationLaw : Prop :=
  ∀ (s : State) (G F : List Byte) (p : Packet), Inv s → Hunting s → s.rxq = [] → s.arrivals = [] →
    s.endless = false → noPreamblePair G = true → decodeFn checksumFn s.capacity F = .ok p →
    (∀ chunks : List (List Byte), chunks.flatten = G ++ F →
      ∃ t, feedCalls chunks s = .next t ∧ t.publog = s.publog ++ [p] ∧ t.state = 0#3 ∧ t.pktValid = true ∧
        t.pktType = p.type ∧ t.pktLen = p.length) ∧
    (∀ (before after : List (List Byte)) (G₁ G₂ : List Byte), G = G₁ ++ G₂ → before.flatten = G₁ →
      after.flatten = G₂ ++ F →
      ∃ u v t, feedCalls before s = .next u ∧ exec .reset u = .next v ∧ feedCalls after v = .next t ∧
        t.publog = s.publog ++ [p] ∧ t.state = 0#3 ∧ t.pktValid = true ∧ t.pktType = p.type ∧ t.pktLen = p.length)

/-- Back-to-back frames and overflow recovery (40_receive R97 (a), (b)). The premise is the model's invariant. -/
def Obligations.BackToBackAndOverflowRecovery : Prop :=
  (∀ (s : State) (F₁ F₂ : List Byte) (p₁ p₂ : Packet), Inv s → s.state = 0#3 →
    decodeFn checksumFn s.capacity F₁ = .ok p₁ → decodeFn checksumFn s.capacity F₂ = .ok p₂ →
    ∃ u t, feed F₁ s = .next u ∧ u.state = 0#3 ∧ feed (F₁ ++ F₂) s = .next t ∧
      t.publog = s.publog ++ [p₁, p₂] ∧ t.state = 0#3) ∧
  (∀ (s : State) (t l : Byte) (r F : List Byte) (p : Packet), Inv s → s.state = 0#3 → s.capacity < 7 + l.toNat →
    noPreamblePair r = true → decodeFn checksumFn s.capacity F = .ok p →
    ∃ u v, feed [0xF0#8, 0xCA#8, t, l] s = .next u ∧ u.state = 5#3 ∧ u.publog = s.publog ∧
      feed ([0xF0#8, 0xCA#8, t, l] ++ r ++ F) s = .next v ∧ v.publog = s.publog ++ [p] ∧ v.state = 0#3)

/-! ### Transmit path -/

/-- SEND_PACKET (43_transmit R115): refused, rejected with nothing written, or one TxWrite of the whole frame. What the
refusal records, the word, LEN and the number of data bytes, is the model's choice (log entry 13). -/
def Obligations.SendPacketWritesOneFrame : Prop :=
  ∀ (t len : Byte) (data : List Byte) (s : State),
    decodeHost { word := 0x8#4 ++ t, len := len, list := data } = .ok (.sendPacket t len data) ∧
    (data.length ≠ len.toNat →
      exec (.sendPacket t len data) s = .refused (.operand (0x8#4 ++ t) len data.length)) ∧
    (data.length = len.toNat → s.capacity - 7 < len.toNat →
      exec (.sendPacket t len data) s = .next { s with result := some (.sent .rejected) }) ∧
    (data.length = len.toNat → len.toNat ≤ s.capacity - 7 →
      exec (.sendPacket t len data) s =
        .next { s with txlog := s.txlog ++ [[0xF0#8, 0xCA#8, t, len] ++ data ++
                                            [checksumFn ([t, len] ++ data), 0x53#8, 0x0F#8]],
                       result := some (.sent .ok) })

/-- SEND_PACKET0 (43_transmit R116): exactly `SEND_PACKET t, 0x00, []`; never rejected; its checksum is `t`. -/
def Obligations.SendPacket0IsTheEmptyForm : Prop :=
  ∀ (t : Byte) (s : State),
    decodeHost { word := 0x6#4 ++ t } = .ok (.sendPacket0 t) ∧
    exec (.sendPacket0 t) s = exec (.sendPacket t 0x00#8 []) s ∧
    exec (.sendPacket0 t) s =
      .next { s with txlog := s.txlog ++ [[0xF0#8, 0xCA#8, t, 0x00#8, t, 0x53#8, 0x0F#8]],
                     result := some (.sent .ok) }

/-- SEND_PACKET1 (43_transmit R117): exactly `SEND_PACKET t, 0x01, [D]`; rejected only when MAX_PAYLOAD = 0. -/
def Obligations.SendPacket1IsTheOneByteForm : Prop :=
  ∀ (t d : Byte) (s : State),
    decodeHost { word := 0x7#4 ++ t, d := d } = .ok (.sendPacket1 t d) ∧
    exec (.sendPacket1 t d) s = exec (.sendPacket t 0x01#8 [d]) s ∧
    (s.capacity ≤ 7 → exec (.sendPacket1 t d) s = .next { s with result := some (.sent .rejected) }) ∧
    (7 < s.capacity →
      exec (.sendPacket1 t d) s =
        .next { s with txlog := s.txlog ++ [[0xF0#8, 0xCA#8, t, 0x01#8, d, t + 0x01#8 + d, 0x53#8, 0x0F#8]],
                       result := some (.sent .ok) })

/-- The transmit path is independent of the receive path (43_transmit R119) and writes whole frames (R118): a send
changes only TXLOG, by at most one event, which is a well-formed frame, and its result; and with any other receive
state it does the same. -/
def Obligations.TransmitPathIsIndependent : Prop :=
  ∀ (i : Instr) (s u : State),
    ((∃ t, i = .sendPacket0 t) ∨ (∃ t d, i = .sendPacket1 t d) ∨ (∃ t len data, i = .sendPacket t len data)) →
    7 ≤ s.capacity → exec i s = .next u →
    u = { s with txlog := u.txlog, result := u.result } ∧
    (u.txlog = s.txlog ∨ ∃ f, u.txlog = s.txlog ++ [f] ∧ wellFormedFrame s.capacity f = true) ∧
    ∀ (st : StateCode) (cur used : Nat) (m : Memory) (v : Bool) (ty len : Byte),
      exec i { s with state := st, cursor := cur, usedLen := used, buf := m, pktValid := v, pktType := ty,
                      pktLen := len } =
        .next { u with state := st, cursor := cur, usedLen := used, buf := m, pktValid := v, pktType := ty,
                       pktLen := len }

/-! ### The machine as a whole -/

/-- The power-on state (70_reset R142), for every CAPACITY and every content of the buffer, and CAPACITY fixed for
good. That `State.reset` is it at the reference sizing of 00_scope R8 is the model's choice (log entry 1), and so is
the content of its buffer (log entry 3). -/
def Obligations.PowerOnState : Prop :=
  (∀ (cap : Nat) (m : Memory),
    let s := State.powerOn cap m
    s.capacity = cap ∧ s.buf = m ∧ s.state = 0#3 ∧ s.cursor = 0 ∧ s.usedLen = 0 ∧ s.pktValid = false ∧ s.pktType = 0xFF#8 ∧ s.pktLen = 0x00#8 ∧
    s.rxq = [] ∧ s.txlog = [] ∧ s.publog = [] ∧ s.trace = [] ∧ s.faultMark = none ∧ s.refusedMark = none) ∧
  (∃ m, State.reset = State.powerOn 32 m) ∧
  (∀ s t : State, step s = .next t → t.capacity = s.capacity)

/-- The invariants of 10_state R33 hold at power-on, at every legal CAPACITY and every content of the buffer. -/
def Obligations.PowerOnMeetsTheInvariants : Prop :=
  Inv State.reset ∧
  ∀ (cap : Nat) (m : Memory), 7 ≤ cap → m.wf = true → m.below cap = true → Inv (State.powerOn cap m)

/-- Every step keeps the invariants INV1 to INV5 and INV7 of 10_state R33, with the canonical form of the buffer. -/
def Obligations.EveryStepKeepsTheInvariants : Prop :=
  ∀ s t : State, Inv s → step s = .next t → Inv t

/-- What an invariant state can stop with (10_state R33 INV6, INV7; 60_exceptions R124, R126): never F_BOUND, never
F_ILLEGAL_STATE, never R_READ_EMPTY. -/
def Obligations.OnlyHostContractStops : Prop :=
  ∀ s : State, Inv s → Unmarked s →
    (∃ t, step s = .next t) ∨ (∃ w, step s = .fault (.noPacket w)) ∨ (∃ i, step s = .fault (.viewIndex i s.pktLen)) ∨
    (s.endless = true ∧ step s = .fault .neverReturns) ∨ (∃ w, step s = .refused (.reservedOp w)) ∨
    (∃ w, step s = .refused (.nonzeroArg w)) ∨ (∃ w len k, step s = .refused (.operand w len k))

/-- A fault or a refusal sets its mark with what it records, ends the operation with no result and writes nothing else;
a marked state has no further step and never loses its mark (60_exceptions R125, R127). The case of a call that never
returns sets no mark. -/
def Obligations.MarksAreSetOnceAndStay : Prop :=
  ∀ s : State,
    (Unmarked s → ∀ f, step s = .fault f → f ≠ .neverReturns →
      tick s = { s with script := s.script.tail, faultMark := some f, result := none }) ∧
    (Unmarked s → ∀ r, step s = .refused r →
      tick s = { s with script := s.script.tail, refusedMark := some r, result := none }) ∧
    (¬ Unmarked s → (∀ t, step s ≠ .next t) ∧ tick s = s)

/-- The logs only grow (10_state R29 to R31), and every packet a step publishes carries as many data bytes as its length
says and fits the buffer (R25, R30). The premise is the model's invariant. -/
def Obligations.LogsOnlyGrow : Prop :=
  ∀ s t : State, Inv s → step s = .next t →
    s.txlog <+: t.txlog ∧ s.trace <+: t.trace ∧
    ∃ ps, t.publog = s.publog ++ ps ∧
      ∀ p ∈ ps, p.data.length = p.length.toNat ∧ p.length.toNat ≤ s.capacity - 7

/-- What no rule may read is never read (10_state R31, R35): from two states that differ only in buffer bytes no rule
reads, in the type and length of a Packet that is not valid, and in the logs, a step stops for the same reason or goes
on to two such states, with the same packets published and the same bytes sent. The premise is the model's
invariant. -/
def Obligations.UnreadStateIsUnobservable : Prop :=
  ∀ s t : State, Inv s → SameToCaller s t →
    OutcomesAgree
      (fun s' t' => SameToCaller s' t' ∧
        (∃ ps, s'.publog = s.publog ++ ps ∧ t'.publog = t.publog ++ ps) ∧
        (∃ fs, s'.txlog = s.txlog ++ fs ∧ t'.txlog = t.txlog ++ fs))
      (step s) (step t)

/-- After RESET every later sequence of host results is the same as after power-on with the same RXQ and the same moves
of caller and transport to come (70_reset R143), whatever the buffer holds at power-on. -/
def Obligations.ResetIsLikePowerOn : Prop :=
  ∀ (s t : State) (m : Memory) (k : Nat), Inv s → Unmarked s → m.wf = true → exec .reset s = .next t →
    observed k t =
      observed k { State.powerOn s.capacity m with
                   rxq := t.rxq, script := t.script, arrivals := t.arrivals, endless := t.endless,
                   result := t.result }
end

