-- ==== Sys2Proof/Laws/Encoding.lean ====
section
/-! SUPPORT. The fields of an operation word and of a receive key: taking a field of a joined word, and joining the
fields of a word (30_encoding R68, R69). -/

namespace Sys2Proof

/-- The high part of two joined fields. -/
theorem high_of_append {n m : Nat} (x : BitVec n) (y : BitVec m) : (x ++ y).extractLsb' m n = x := by
  apply BitVec.eq_of_getLsbD_eq
  intro i hi
  simp [BitVec.getLsbD_append, hi]

/-- The low part of two joined fields. -/
theorem low_of_append {n m : Nat} (x : BitVec n) (y : BitVec m) : (x ++ y).extractLsb' 0 m = y := by
  apply BitVec.eq_of_getLsbD_eq
  intro i hi
  simp [BitVec.getLsbD_append, hi]

/-- A word is its high part joined with its low part. -/
theorem append_of_fields {n m : Nat} (k : BitVec (n + m)) : k.extractLsb' m n ++ k.extractLsb' 0 m = k := by
  apply BitVec.eq_of_getLsbD_eq
  intro i hi
  simp

@[simp] theorem keyState_rxKey (st : StateCode) (b : Byte) : keyState (rxKey st b) = st := high_of_append st b
@[simp] theorem keyByte_rxKey (st : StateCode) (b : Byte) : keyByte (rxKey st b) = b := low_of_append st b
@[simp] theorem rxKey_fields (k : RxKey) : rxKey (keyState k) (keyByte k) = k :=
  append_of_fields (n := 3) (m := 8) k
@[simp] theorem opOf_opWord (op : BitVec 4) (arg : Byte) : opOf (opWord op arg) = op := high_of_append op arg
@[simp] theorem argOf_opWord (op : BitVec 4) (arg : Byte) : argOf (opWord op arg) = arg := low_of_append op arg
@[simp] theorem opWord_fields (w : OpWord) : opWord (opOf w) (argOf w) = w :=
  append_of_fields (n := 4) (m := 8) w

/-- An operation whose ARG must be 0 decodes exactly when it is. -/
theorem needZeroArg_eq_ok {w : OpWord} {i j : Instr} : needZeroArg w i = .ok j ↔ argOf w = 0#8 ∧ j = i := by
  by_cases h : argOf w = 0#8 <;> simp [needZeroArg, h, eq_comm]

end Sys2Proof
end

