-- ==== Sys2Proof/Laws/Memory.lean ====
section
/-! SUPPORT. The laws of the buffer: a read after a write, that a write keeps the canonical form and stays below
CAPACITY, and the spans. -/

namespace Sys2Proof.Machine

@[simp] theorem Memory.read_nil (i : Nat) : Memory.read [] i = Config.bufPowerOn := rfl

/-- An index below every listed one reads as the power-on byte. -/
theorem Memory.read_of_lt_wfFrom {m : Memory} {lo i : Nat} (h : Memory.wfFrom lo m = true) (hi : i < lo) :
    m.read i = Config.bufPowerOn := by
  induction m generalizing lo with
  | nil => rfl
  | cons c rest ih =>
    simp only [Memory.wfFrom, Bool.and_eq_true, decide_eq_true_eq] at h
    simp only [Memory.read]
    rw [if_neg (by omega)]
    exact ih h.2 (by omega)

/-- Reading another index than the one written. -/
theorem Memory.read_write_ne (m : Memory) {i j : Nat} (v : Byte) (h : j ≠ i) :
    (m.write i v).read j = m.read j := by
  induction m with
  | nil =>
    unfold Memory.write
    split
    · rfl
    · simp [Memory.read, Ne.symm h]
  | cons c rest ih =>
    unfold Memory.write
    split
    · simp only [Memory.read, ih]
    · by_cases hc : c.1 = i <;> by_cases hv : v = Config.bufPowerOn <;>
        simp [Memory.read, hc, hv, Ne.symm h]

/-- Reading the index written, in a buffer of canonical form. -/
theorem Memory.read_write_eq_from {m : Memory} {lo : Nat} (hm : Memory.wfFrom lo m = true) (i : Nat) (v : Byte) :
    (m.write i v).read i = v := by
  induction m generalizing lo with
  | nil =>
    unfold Memory.write
    split
    · simp_all [Memory.read]
    · simp [Memory.read]
  | cons c rest ih =>
    simp only [Memory.wfFrom, Bool.and_eq_true, decide_eq_true_eq] at hm
    unfold Memory.write
    split
    · simp only [Memory.read]
      rw [if_neg (by omega)]
      exact ih hm.2
    · by_cases hc : c.1 = i
      · by_cases hv : v = Config.bufPowerOn
        · simp only [hc, hv, if_true]
          exact Memory.read_of_lt_wfFrom hm.2 (by omega)
        · simp [hc, hv, Memory.read]
      · by_cases hv : v = Config.bufPowerOn
        · simp only [hc, hv, if_true, if_false, Memory.read]
          exact Memory.read_of_lt_wfFrom hm.2 (by omega)
        · simp [hc, hv, Memory.read]

theorem Memory.read_write_eq {m : Memory} (hm : m.wf = true) (i : Nat) (v : Byte) :
    (m.write i v).read i = v := Memory.read_write_eq_from hm i v

theorem Memory.wfFrom_mono {m : Memory} {lo lo' : Nat} (h : Memory.wfFrom lo m = true) (hl : lo' ≤ lo) :
    Memory.wfFrom lo' m = true := by
  cases m with
  | nil => rfl
  | cons c rest =>
    simp only [Memory.wfFrom, Bool.and_eq_true, decide_eq_true_eq] at h ⊢
    exact ⟨⟨by omega, h.1.2⟩, h.2⟩

/-- A write keeps the canonical form. -/
theorem Memory.wfFrom_write {m : Memory} {lo i : Nat} (hm : Memory.wfFrom lo m = true) (hi : lo ≤ i) (v : Byte) :
    Memory.wfFrom lo (m.write i v) = true := by
  induction m generalizing lo with
  | nil =>
    unfold Memory.write
    split
    · rfl
    · simp_all [Memory.wfFrom]
  | cons c rest ih =>
    have hc := hm
    simp only [Memory.wfFrom, Bool.and_eq_true, decide_eq_true_eq] at hc
    unfold Memory.write
    split
    · simp only [Memory.wfFrom, Bool.and_eq_true, decide_eq_true_eq]
      exact ⟨hc.1, ih hc.2 (by omega)⟩
    · by_cases he : c.1 = i
      · by_cases hv : v = Config.bufPowerOn
        · simp only [he, hv, if_true]
          exact Memory.wfFrom_mono hc.2 (by omega)
        · simp only [he, hv, if_true, if_false, Memory.wfFrom, Bool.and_eq_true, decide_eq_true_eq]
          exact ⟨⟨hi, hv⟩, he ▸ hc.2⟩
      · by_cases hv : v = Config.bufPowerOn
        · simpa only [he, hv, if_true, if_false] using hm
        · simp only [he, hv, if_false, Memory.wfFrom, Bool.and_eq_true, decide_eq_true_eq]
          exact ⟨⟨hi, hv⟩, ⟨by omega, hc.1.2⟩, hc.2⟩

theorem Memory.wf_write {m : Memory} (hm : m.wf = true) (i : Nat) (v : Byte) : (m.write i v).wf = true :=
  Memory.wfFrom_write hm (Nat.zero_le i) v

/-- A write below CAPACITY keeps every index below it. -/
theorem Memory.below_write {m : Memory} {cap i : Nat} (hm : m.below cap = true) (hi : i < cap) (v : Byte) :
    (m.write i v).below cap = true := by
  induction m with
  | nil =>
    unfold Memory.write
    split <;> simp [Memory.below, hi]
  | cons c rest ih =>
    simp only [Memory.below, Bool.and_eq_true, decide_eq_true_eq] at hm
    unfold Memory.write
    split
    · simp [Memory.below, hm.1, ih hm.2]
    · by_cases he : c.1 = i <;> by_cases hv : v = Config.bufPowerOn <;>
        simp [Memory.below, he, hv, hm.1, hm.2, hi]

/-! ### Spans -/

@[simp] theorem Memory.span_zero (m : Memory) (lo : Nat) : m.span lo 0 = [] := rfl

theorem Memory.span_succ (m : Memory) (lo n : Nat) : m.span lo (n + 1) = m.read lo :: m.span (lo + 1) n := rfl

@[simp] theorem Memory.length_span (m : Memory) (lo n : Nat) : (m.span lo n).length = n := by
  induction n generalizing lo with
  | zero => rfl
  | succ k ih => simp [Memory.span_succ, ih]

/-- Two buffers that agree on the indices of a span have the same span. -/
theorem Memory.span_congr {m m' : Memory} {lo n : Nat} (h : ∀ i, lo ≤ i → i < lo + n → m.read i = m'.read i) :
    m.span lo n = m'.span lo n := by
  induction n generalizing lo with
  | zero => rfl
  | succ k ih =>
    rw [Memory.span_succ, Memory.span_succ, h lo (by omega) (by omega),
      ih (fun i h1 h2 => h i (by omega) (by omega))]

/-- A write outside a span leaves it. -/
theorem Memory.span_write_of_not_mem (m : Memory) {i lo n : Nat} (v : Byte) (h : i < lo ∨ lo + n ≤ i) :
    (m.write i v).span lo n = m.span lo n :=
  Memory.span_congr fun j _ _ => Memory.read_write_ne m v (by omega)

theorem Memory.span_append (m : Memory) (lo a b : Nat) : m.span lo (a + b) = m.span lo a ++ m.span (lo + a) b := by
  induction a generalizing lo with
  | zero => simp
  | succ k ih =>
    rw [Nat.succ_add, Memory.span_succ, Memory.span_succ, ih, List.cons_append]
    congr 3
    omega

/-- The byte of a span at an index inside it. -/
theorem Memory.getD_span (m : Memory) {lo n k : Nat} (h : k < n) (d : Byte) :
    (m.span lo n).getD k d = m.read (lo + k) := by
  induction n generalizing lo k with
  | zero => omega
  | succ j ih =>
    cases k with
    | zero => simp [Memory.span_succ]
    | succ k =>
      rw [Memory.span_succ, List.getD_cons_succ, ih (by omega)]
      congr 1
      omega

end Sys2Proof.Machine
end

