-- ==== Sys2Proof/Laws/State.lean ====
section
/-! SUPPORT. One lemma per field of State per named update, true by `rfl`, so that no proof unfolds a record
update. -/

namespace Sys2Proof.Machine

/-! ### `advanced` -/

@[simp] theorem State.advanced_capacity (s : State) : (s.advanced).capacity = s.capacity := rfl
@[simp] theorem State.advanced_state (s : State) : (s.advanced).state = s.state := rfl
@[simp] theorem State.advanced_cursor (s : State) : (s.advanced).cursor = s.cursor + 1 := rfl
@[simp] theorem State.advanced_usedLen (s : State) : (s.advanced).usedLen = s.cursor + 1 := rfl
@[simp] theorem State.advanced_buf (s : State) : (s.advanced).buf = s.buf := rfl
@[simp] theorem State.advanced_pktValid (s : State) : (s.advanced).pktValid = false := rfl
@[simp] theorem State.advanced_pktType (s : State) : (s.advanced).pktType = s.pktType := rfl
@[simp] theorem State.advanced_pktLen (s : State) : (s.advanced).pktLen = s.pktLen := rfl
@[simp] theorem State.advanced_rxq (s : State) : (s.advanced).rxq = s.rxq := rfl
@[simp] theorem State.advanced_txlog (s : State) : (s.advanced).txlog = s.txlog := rfl
@[simp] theorem State.advanced_publog (s : State) : (s.advanced).publog = s.publog := rfl
@[simp] theorem State.advanced_trace (s : State) : (s.advanced).trace = s.trace := rfl
@[simp] theorem State.advanced_faultMark (s : State) : (s.advanced).faultMark = s.faultMark := rfl
@[simp] theorem State.advanced_refusedMark (s : State) : (s.advanced).refusedMark = s.refusedMark := rfl
@[simp] theorem State.advanced_result (s : State) : (s.advanced).result = s.result := rfl
@[simp] theorem State.advanced_script (s : State) : (s.advanced).script = s.script := rfl
@[simp] theorem State.advanced_arrivals (s : State) : (s.advanced).arrivals = s.arrivals := rfl
@[simp] theorem State.advanced_endless (s : State) : (s.advanced).endless = s.endless := rfl

/-! ### `stored` -/

@[simp] theorem State.stored_capacity (b : Byte) (s : State) : (s.stored b).capacity = s.capacity := rfl
@[simp] theorem State.stored_state (b : Byte) (s : State) : (s.stored b).state = s.state := rfl
@[simp] theorem State.stored_cursor (b : Byte) (s : State) : (s.stored b).cursor = s.cursor + 1 := rfl
@[simp] theorem State.stored_usedLen (b : Byte) (s : State) : (s.stored b).usedLen = s.cursor + 1 := rfl
@[simp] theorem State.stored_buf (b : Byte) (s : State) : (s.stored b).buf = s.buf.write s.cursor b := rfl
@[simp] theorem State.stored_pktValid (b : Byte) (s : State) : (s.stored b).pktValid = false := rfl
@[simp] theorem State.stored_pktType (b : Byte) (s : State) : (s.stored b).pktType = s.pktType := rfl
@[simp] theorem State.stored_pktLen (b : Byte) (s : State) : (s.stored b).pktLen = s.pktLen := rfl
@[simp] theorem State.stored_rxq (b : Byte) (s : State) : (s.stored b).rxq = s.rxq := rfl
@[simp] theorem State.stored_txlog (b : Byte) (s : State) : (s.stored b).txlog = s.txlog := rfl
@[simp] theorem State.stored_publog (b : Byte) (s : State) : (s.stored b).publog = s.publog := rfl
@[simp] theorem State.stored_trace (b : Byte) (s : State) : (s.stored b).trace = s.trace := rfl
@[simp] theorem State.stored_faultMark (b : Byte) (s : State) : (s.stored b).faultMark = s.faultMark := rfl
@[simp] theorem State.stored_refusedMark (b : Byte) (s : State) : (s.stored b).refusedMark = s.refusedMark := rfl
@[simp] theorem State.stored_result (b : Byte) (s : State) : (s.stored b).result = s.result := rfl
@[simp] theorem State.stored_script (b : Byte) (s : State) : (s.stored b).script = s.script := rfl
@[simp] theorem State.stored_arrivals (b : Byte) (s : State) : (s.stored b).arrivals = s.arrivals := rfl
@[simp] theorem State.stored_endless (b : Byte) (s : State) : (s.stored b).endless = s.endless := rfl

/-! ### `setState` -/

@[simp] theorem State.setState_capacity (c : StateCode) (s : State) : (s.setState c).capacity = s.capacity := rfl
@[simp] theorem State.setState_state (c : StateCode) (s : State) : (s.setState c).state = c := rfl
@[simp] theorem State.setState_cursor (c : StateCode) (s : State) : (s.setState c).cursor = s.cursor := rfl
@[simp] theorem State.setState_usedLen (c : StateCode) (s : State) : (s.setState c).usedLen = s.usedLen := rfl
@[simp] theorem State.setState_buf (c : StateCode) (s : State) : (s.setState c).buf = s.buf := rfl
@[simp] theorem State.setState_pktValid (c : StateCode) (s : State) : (s.setState c).pktValid = s.pktValid := rfl
@[simp] theorem State.setState_pktType (c : StateCode) (s : State) : (s.setState c).pktType = s.pktType := rfl
@[simp] theorem State.setState_pktLen (c : StateCode) (s : State) : (s.setState c).pktLen = s.pktLen := rfl
@[simp] theorem State.setState_rxq (c : StateCode) (s : State) : (s.setState c).rxq = s.rxq := rfl
@[simp] theorem State.setState_txlog (c : StateCode) (s : State) : (s.setState c).txlog = s.txlog := rfl
@[simp] theorem State.setState_publog (c : StateCode) (s : State) : (s.setState c).publog = s.publog := rfl
@[simp] theorem State.setState_trace (c : StateCode) (s : State) : (s.setState c).trace = s.trace := rfl
@[simp] theorem State.setState_faultMark (c : StateCode) (s : State) : (s.setState c).faultMark = s.faultMark := rfl
@[simp] theorem State.setState_refusedMark (c : StateCode) (s : State) : (s.setState c).refusedMark = s.refusedMark := rfl
@[simp] theorem State.setState_result (c : StateCode) (s : State) : (s.setState c).result = s.result := rfl
@[simp] theorem State.setState_script (c : StateCode) (s : State) : (s.setState c).script = s.script := rfl
@[simp] theorem State.setState_arrivals (c : StateCode) (s : State) : (s.setState c).arrivals = s.arrivals := rfl
@[simp] theorem State.setState_endless (c : StateCode) (s : State) : (s.setState c).endless = s.endless := rfl

/-! ### `clearCursor` -/

@[simp] theorem State.clearCursor_capacity (s : State) : (s.clearCursor).capacity = s.capacity := rfl
@[simp] theorem State.clearCursor_state (s : State) : (s.clearCursor).state = s.state := rfl
@[simp] theorem State.clearCursor_cursor (s : State) : (s.clearCursor).cursor = 0 := rfl
@[simp] theorem State.clearCursor_usedLen (s : State) : (s.clearCursor).usedLen = s.usedLen := rfl
@[simp] theorem State.clearCursor_buf (s : State) : (s.clearCursor).buf = s.buf := rfl
@[simp] theorem State.clearCursor_pktValid (s : State) : (s.clearCursor).pktValid = s.pktValid := rfl
@[simp] theorem State.clearCursor_pktType (s : State) : (s.clearCursor).pktType = s.pktType := rfl
@[simp] theorem State.clearCursor_pktLen (s : State) : (s.clearCursor).pktLen = s.pktLen := rfl
@[simp] theorem State.clearCursor_rxq (s : State) : (s.clearCursor).rxq = s.rxq := rfl
@[simp] theorem State.clearCursor_txlog (s : State) : (s.clearCursor).txlog = s.txlog := rfl
@[simp] theorem State.clearCursor_publog (s : State) : (s.clearCursor).publog = s.publog := rfl
@[simp] theorem State.clearCursor_trace (s : State) : (s.clearCursor).trace = s.trace := rfl
@[simp] theorem State.clearCursor_faultMark (s : State) : (s.clearCursor).faultMark = s.faultMark := rfl
@[simp] theorem State.clearCursor_refusedMark (s : State) : (s.clearCursor).refusedMark = s.refusedMark := rfl
@[simp] theorem State.clearCursor_result (s : State) : (s.clearCursor).result = s.result := rfl
@[simp] theorem State.clearCursor_script (s : State) : (s.clearCursor).script = s.script := rfl
@[simp] theorem State.clearCursor_arrivals (s : State) : (s.clearCursor).arrivals = s.arrivals := rfl
@[simp] theorem State.clearCursor_endless (s : State) : (s.clearCursor).endless = s.endless := rfl

/-! ### `publish` -/

@[simp] theorem State.publish_capacity (t n : Byte) (d : List Byte) (s : State) : (s.publish t n d).capacity = s.capacity := rfl
@[simp] theorem State.publish_state (t n : Byte) (d : List Byte) (s : State) : (s.publish t n d).state = s.state := rfl
@[simp] theorem State.publish_cursor (t n : Byte) (d : List Byte) (s : State) : (s.publish t n d).cursor = s.cursor := rfl
@[simp] theorem State.publish_usedLen (t n : Byte) (d : List Byte) (s : State) : (s.publish t n d).usedLen = s.usedLen := rfl
@[simp] theorem State.publish_buf (t n : Byte) (d : List Byte) (s : State) : (s.publish t n d).buf = s.buf := rfl
@[simp] theorem State.publish_pktValid (t n : Byte) (d : List Byte) (s : State) : (s.publish t n d).pktValid = true := rfl
@[simp] theorem State.publish_pktType (t n : Byte) (d : List Byte) (s : State) : (s.publish t n d).pktType = t := rfl
@[simp] theorem State.publish_pktLen (t n : Byte) (d : List Byte) (s : State) : (s.publish t n d).pktLen = n := rfl
@[simp] theorem State.publish_rxq (t n : Byte) (d : List Byte) (s : State) : (s.publish t n d).rxq = s.rxq := rfl
@[simp] theorem State.publish_txlog (t n : Byte) (d : List Byte) (s : State) : (s.publish t n d).txlog = s.txlog := rfl
@[simp] theorem State.publish_publog (t n : Byte) (d : List Byte) (s : State) : (s.publish t n d).publog = s.publog ++ [⟨t, n, d⟩] := rfl
@[simp] theorem State.publish_trace (t n : Byte) (d : List Byte) (s : State) : (s.publish t n d).trace = s.trace := rfl
@[simp] theorem State.publish_faultMark (t n : Byte) (d : List Byte) (s : State) : (s.publish t n d).faultMark = s.faultMark := rfl
@[simp] theorem State.publish_refusedMark (t n : Byte) (d : List Byte) (s : State) : (s.publish t n d).refusedMark = s.refusedMark := rfl
@[simp] theorem State.publish_result (t n : Byte) (d : List Byte) (s : State) : (s.publish t n d).result = s.result := rfl
@[simp] theorem State.publish_script (t n : Byte) (d : List Byte) (s : State) : (s.publish t n d).script = s.script := rfl
@[simp] theorem State.publish_arrivals (t n : Byte) (d : List Byte) (s : State) : (s.publish t n d).arrivals = s.arrivals := rfl
@[simp] theorem State.publish_endless (t n : Byte) (d : List Byte) (s : State) : (s.publish t n d).endless = s.endless := rfl

/-! ### `traced` -/

@[simp] theorem State.traced_capacity (c : TraceCode) (r : RxRow) (s : State) : (s.traced c r).capacity = s.capacity := rfl
@[simp] theorem State.traced_state (c : TraceCode) (r : RxRow) (s : State) : (s.traced c r).state = s.state := rfl
@[simp] theorem State.traced_cursor (c : TraceCode) (r : RxRow) (s : State) : (s.traced c r).cursor = s.cursor := rfl
@[simp] theorem State.traced_usedLen (c : TraceCode) (r : RxRow) (s : State) : (s.traced c r).usedLen = s.usedLen := rfl
@[simp] theorem State.traced_buf (c : TraceCode) (r : RxRow) (s : State) : (s.traced c r).buf = s.buf := rfl
@[simp] theorem State.traced_pktValid (c : TraceCode) (r : RxRow) (s : State) : (s.traced c r).pktValid = s.pktValid := rfl
@[simp] theorem State.traced_pktType (c : TraceCode) (r : RxRow) (s : State) : (s.traced c r).pktType = s.pktType := rfl
@[simp] theorem State.traced_pktLen (c : TraceCode) (r : RxRow) (s : State) : (s.traced c r).pktLen = s.pktLen := rfl
@[simp] theorem State.traced_rxq (c : TraceCode) (r : RxRow) (s : State) : (s.traced c r).rxq = s.rxq := rfl
@[simp] theorem State.traced_txlog (c : TraceCode) (r : RxRow) (s : State) : (s.traced c r).txlog = s.txlog := rfl
@[simp] theorem State.traced_publog (c : TraceCode) (r : RxRow) (s : State) : (s.traced c r).publog = s.publog := rfl
@[simp] theorem State.traced_trace (c : TraceCode) (r : RxRow) (s : State) : (s.traced c r).trace = s.trace ++ [⟨c, r⟩] := rfl
@[simp] theorem State.traced_faultMark (c : TraceCode) (r : RxRow) (s : State) : (s.traced c r).faultMark = s.faultMark := rfl
@[simp] theorem State.traced_refusedMark (c : TraceCode) (r : RxRow) (s : State) : (s.traced c r).refusedMark = s.refusedMark := rfl
@[simp] theorem State.traced_result (c : TraceCode) (r : RxRow) (s : State) : (s.traced c r).result = s.result := rfl
@[simp] theorem State.traced_script (c : TraceCode) (r : RxRow) (s : State) : (s.traced c r).script = s.script := rfl
@[simp] theorem State.traced_arrivals (c : TraceCode) (r : RxRow) (s : State) : (s.traced c r).arrivals = s.arrivals := rfl
@[simp] theorem State.traced_endless (c : TraceCode) (r : RxRow) (s : State) : (s.traced c r).endless = s.endless := rfl

/-! ### `received` -/

@[simp] theorem State.received_capacity (bs : List Byte) (s : State) : (s.received bs).capacity = s.capacity := rfl
@[simp] theorem State.received_state (bs : List Byte) (s : State) : (s.received bs).state = s.state := rfl
@[simp] theorem State.received_cursor (bs : List Byte) (s : State) : (s.received bs).cursor = s.cursor := rfl
@[simp] theorem State.received_usedLen (bs : List Byte) (s : State) : (s.received bs).usedLen = s.usedLen := rfl
@[simp] theorem State.received_buf (bs : List Byte) (s : State) : (s.received bs).buf = s.buf := rfl
@[simp] theorem State.received_pktValid (bs : List Byte) (s : State) : (s.received bs).pktValid = s.pktValid := rfl
@[simp] theorem State.received_pktType (bs : List Byte) (s : State) : (s.received bs).pktType = s.pktType := rfl
@[simp] theorem State.received_pktLen (bs : List Byte) (s : State) : (s.received bs).pktLen = s.pktLen := rfl
@[simp] theorem State.received_rxq (bs : List Byte) (s : State) : (s.received bs).rxq = s.rxq ++ bs := rfl
@[simp] theorem State.received_txlog (bs : List Byte) (s : State) : (s.received bs).txlog = s.txlog := rfl
@[simp] theorem State.received_publog (bs : List Byte) (s : State) : (s.received bs).publog = s.publog := rfl
@[simp] theorem State.received_trace (bs : List Byte) (s : State) : (s.received bs).trace = s.trace := rfl
@[simp] theorem State.received_faultMark (bs : List Byte) (s : State) : (s.received bs).faultMark = s.faultMark := rfl
@[simp] theorem State.received_refusedMark (bs : List Byte) (s : State) : (s.received bs).refusedMark = s.refusedMark := rfl
@[simp] theorem State.received_result (bs : List Byte) (s : State) : (s.received bs).result = s.result := rfl
@[simp] theorem State.received_script (bs : List Byte) (s : State) : (s.received bs).script = s.script := rfl
@[simp] theorem State.received_arrivals (bs : List Byte) (s : State) : (s.received bs).arrivals = s.arrivals := rfl
@[simp] theorem State.received_endless (bs : List Byte) (s : State) : (s.received bs).endless = s.endless := rfl

/-! ### `txWrite` -/

@[simp] theorem State.txWrite_capacity (bs : List Byte) (s : State) : (s.txWrite bs).capacity = s.capacity := rfl
@[simp] theorem State.txWrite_state (bs : List Byte) (s : State) : (s.txWrite bs).state = s.state := rfl
@[simp] theorem State.txWrite_cursor (bs : List Byte) (s : State) : (s.txWrite bs).cursor = s.cursor := rfl
@[simp] theorem State.txWrite_usedLen (bs : List Byte) (s : State) : (s.txWrite bs).usedLen = s.usedLen := rfl
@[simp] theorem State.txWrite_buf (bs : List Byte) (s : State) : (s.txWrite bs).buf = s.buf := rfl
@[simp] theorem State.txWrite_pktValid (bs : List Byte) (s : State) : (s.txWrite bs).pktValid = s.pktValid := rfl
@[simp] theorem State.txWrite_pktType (bs : List Byte) (s : State) : (s.txWrite bs).pktType = s.pktType := rfl
@[simp] theorem State.txWrite_pktLen (bs : List Byte) (s : State) : (s.txWrite bs).pktLen = s.pktLen := rfl
@[simp] theorem State.txWrite_rxq (bs : List Byte) (s : State) : (s.txWrite bs).rxq = s.rxq := rfl
@[simp] theorem State.txWrite_txlog (bs : List Byte) (s : State) : (s.txWrite bs).txlog = s.txlog ++ [bs] := rfl
@[simp] theorem State.txWrite_publog (bs : List Byte) (s : State) : (s.txWrite bs).publog = s.publog := rfl
@[simp] theorem State.txWrite_trace (bs : List Byte) (s : State) : (s.txWrite bs).trace = s.trace := rfl
@[simp] theorem State.txWrite_faultMark (bs : List Byte) (s : State) : (s.txWrite bs).faultMark = s.faultMark := rfl
@[simp] theorem State.txWrite_refusedMark (bs : List Byte) (s : State) : (s.txWrite bs).refusedMark = s.refusedMark := rfl
@[simp] theorem State.txWrite_result (bs : List Byte) (s : State) : (s.txWrite bs).result = s.result := rfl
@[simp] theorem State.txWrite_script (bs : List Byte) (s : State) : (s.txWrite bs).script = s.script := rfl
@[simp] theorem State.txWrite_arrivals (bs : List Byte) (s : State) : (s.txWrite bs).arrivals = s.arrivals := rfl
@[simp] theorem State.txWrite_endless (bs : List Byte) (s : State) : (s.txWrite bs).endless = s.endless := rfl

/-! ### `returns` -/

@[simp] theorem State.returns_capacity (r : Result) (s : State) : (s.returns r).capacity = s.capacity := rfl
@[simp] theorem State.returns_state (r : Result) (s : State) : (s.returns r).state = s.state := rfl
@[simp] theorem State.returns_cursor (r : Result) (s : State) : (s.returns r).cursor = s.cursor := rfl
@[simp] theorem State.returns_usedLen (r : Result) (s : State) : (s.returns r).usedLen = s.usedLen := rfl
@[simp] theorem State.returns_buf (r : Result) (s : State) : (s.returns r).buf = s.buf := rfl
@[simp] theorem State.returns_pktValid (r : Result) (s : State) : (s.returns r).pktValid = s.pktValid := rfl
@[simp] theorem State.returns_pktType (r : Result) (s : State) : (s.returns r).pktType = s.pktType := rfl
@[simp] theorem State.returns_pktLen (r : Result) (s : State) : (s.returns r).pktLen = s.pktLen := rfl
@[simp] theorem State.returns_rxq (r : Result) (s : State) : (s.returns r).rxq = s.rxq := rfl
@[simp] theorem State.returns_txlog (r : Result) (s : State) : (s.returns r).txlog = s.txlog := rfl
@[simp] theorem State.returns_publog (r : Result) (s : State) : (s.returns r).publog = s.publog := rfl
@[simp] theorem State.returns_trace (r : Result) (s : State) : (s.returns r).trace = s.trace := rfl
@[simp] theorem State.returns_faultMark (r : Result) (s : State) : (s.returns r).faultMark = s.faultMark := rfl
@[simp] theorem State.returns_refusedMark (r : Result) (s : State) : (s.returns r).refusedMark = s.refusedMark := rfl
@[simp] theorem State.returns_result (r : Result) (s : State) : (s.returns r).result = some r := rfl
@[simp] theorem State.returns_script (r : Result) (s : State) : (s.returns r).script = s.script := rfl
@[simp] theorem State.returns_arrivals (r : Result) (s : State) : (s.returns r).arrivals = s.arrivals := rfl
@[simp] theorem State.returns_endless (r : Result) (s : State) : (s.returns r).endless = s.endless := rfl

/-! ### `moved` -/

@[simp] theorem State.moved_capacity (s : State) : (s.moved).capacity = s.capacity := rfl
@[simp] theorem State.moved_state (s : State) : (s.moved).state = s.state := rfl
@[simp] theorem State.moved_cursor (s : State) : (s.moved).cursor = s.cursor := rfl
@[simp] theorem State.moved_usedLen (s : State) : (s.moved).usedLen = s.usedLen := rfl
@[simp] theorem State.moved_buf (s : State) : (s.moved).buf = s.buf := rfl
@[simp] theorem State.moved_pktValid (s : State) : (s.moved).pktValid = s.pktValid := rfl
@[simp] theorem State.moved_pktType (s : State) : (s.moved).pktType = s.pktType := rfl
@[simp] theorem State.moved_pktLen (s : State) : (s.moved).pktLen = s.pktLen := rfl
@[simp] theorem State.moved_rxq (s : State) : (s.moved).rxq = s.rxq := rfl
@[simp] theorem State.moved_txlog (s : State) : (s.moved).txlog = s.txlog := rfl
@[simp] theorem State.moved_publog (s : State) : (s.moved).publog = s.publog := rfl
@[simp] theorem State.moved_trace (s : State) : (s.moved).trace = s.trace := rfl
@[simp] theorem State.moved_faultMark (s : State) : (s.moved).faultMark = s.faultMark := rfl
@[simp] theorem State.moved_refusedMark (s : State) : (s.moved).refusedMark = s.refusedMark := rfl
@[simp] theorem State.moved_result (s : State) : (s.moved).result = s.result := rfl
@[simp] theorem State.moved_script (s : State) : (s.moved).script = s.script.tail := rfl
@[simp] theorem State.moved_arrivals (s : State) : (s.moved).arrivals = s.arrivals := rfl
@[simp] theorem State.moved_endless (s : State) : (s.moved).endless = s.endless := rfl

/-! ### `markFault` -/

@[simp] theorem State.markFault_capacity (f : Fault) (s : State) : (s.markFault f).capacity = s.capacity := rfl
@[simp] theorem State.markFault_state (f : Fault) (s : State) : (s.markFault f).state = s.state := rfl
@[simp] theorem State.markFault_cursor (f : Fault) (s : State) : (s.markFault f).cursor = s.cursor := rfl
@[simp] theorem State.markFault_usedLen (f : Fault) (s : State) : (s.markFault f).usedLen = s.usedLen := rfl
@[simp] theorem State.markFault_buf (f : Fault) (s : State) : (s.markFault f).buf = s.buf := rfl
@[simp] theorem State.markFault_pktValid (f : Fault) (s : State) : (s.markFault f).pktValid = s.pktValid := rfl
@[simp] theorem State.markFault_pktType (f : Fault) (s : State) : (s.markFault f).pktType = s.pktType := rfl
@[simp] theorem State.markFault_pktLen (f : Fault) (s : State) : (s.markFault f).pktLen = s.pktLen := rfl
@[simp] theorem State.markFault_rxq (f : Fault) (s : State) : (s.markFault f).rxq = s.rxq := rfl
@[simp] theorem State.markFault_txlog (f : Fault) (s : State) : (s.markFault f).txlog = s.txlog := rfl
@[simp] theorem State.markFault_publog (f : Fault) (s : State) : (s.markFault f).publog = s.publog := rfl
@[simp] theorem State.markFault_trace (f : Fault) (s : State) : (s.markFault f).trace = s.trace := rfl
@[simp] theorem State.markFault_faultMark (f : Fault) (s : State) : (s.markFault f).faultMark = some (s.faultMark.getD f) := rfl
@[simp] theorem State.markFault_refusedMark (f : Fault) (s : State) : (s.markFault f).refusedMark = s.refusedMark := rfl
@[simp] theorem State.markFault_result (f : Fault) (s : State) : (s.markFault f).result = none := rfl
@[simp] theorem State.markFault_script (f : Fault) (s : State) : (s.markFault f).script = s.script := rfl
@[simp] theorem State.markFault_arrivals (f : Fault) (s : State) : (s.markFault f).arrivals = s.arrivals := rfl
@[simp] theorem State.markFault_endless (f : Fault) (s : State) : (s.markFault f).endless = s.endless := rfl

/-! ### `markRefused` -/

@[simp] theorem State.markRefused_capacity (r : Refusal) (s : State) : (s.markRefused r).capacity = s.capacity := rfl
@[simp] theorem State.markRefused_state (r : Refusal) (s : State) : (s.markRefused r).state = s.state := rfl
@[simp] theorem State.markRefused_cursor (r : Refusal) (s : State) : (s.markRefused r).cursor = s.cursor := rfl
@[simp] theorem State.markRefused_usedLen (r : Refusal) (s : State) : (s.markRefused r).usedLen = s.usedLen := rfl
@[simp] theorem State.markRefused_buf (r : Refusal) (s : State) : (s.markRefused r).buf = s.buf := rfl
@[simp] theorem State.markRefused_pktValid (r : Refusal) (s : State) : (s.markRefused r).pktValid = s.pktValid := rfl
@[simp] theorem State.markRefused_pktType (r : Refusal) (s : State) : (s.markRefused r).pktType = s.pktType := rfl
@[simp] theorem State.markRefused_pktLen (r : Refusal) (s : State) : (s.markRefused r).pktLen = s.pktLen := rfl
@[simp] theorem State.markRefused_rxq (r : Refusal) (s : State) : (s.markRefused r).rxq = s.rxq := rfl
@[simp] theorem State.markRefused_txlog (r : Refusal) (s : State) : (s.markRefused r).txlog = s.txlog := rfl
@[simp] theorem State.markRefused_publog (r : Refusal) (s : State) : (s.markRefused r).publog = s.publog := rfl
@[simp] theorem State.markRefused_trace (r : Refusal) (s : State) : (s.markRefused r).trace = s.trace := rfl
@[simp] theorem State.markRefused_faultMark (r : Refusal) (s : State) : (s.markRefused r).faultMark = s.faultMark := rfl
@[simp] theorem State.markRefused_refusedMark (r : Refusal) (s : State) : (s.markRefused r).refusedMark = some (s.refusedMark.getD r) := rfl
@[simp] theorem State.markRefused_result (r : Refusal) (s : State) : (s.markRefused r).result = none := rfl
@[simp] theorem State.markRefused_script (r : Refusal) (s : State) : (s.markRefused r).script = s.script := rfl
@[simp] theorem State.markRefused_arrivals (r : Refusal) (s : State) : (s.markRefused r).arrivals = s.arrivals := rfl
@[simp] theorem State.markRefused_endless (r : Refusal) (s : State) : (s.markRefused r).endless = s.endless := rfl

end Sys2Proof.Machine
end

