-- ==== Sys2Proof/Laws/Ops.lean ====
section
/-! SUPPORT. One lemma per shared operation saying once everything it can do, for callers to cite. -/

namespace Sys2Proof.Machine

/-! ### Sequencing -/

@[simp] theorem andThen_next {α β : Type} (a : α) (f : α → Host.Outcome β Fault Refusal) :
    andThen (.next a) f = f a := rfl
@[simp] theorem andThen_fault {α β : Type} (r : Fault) (f : α → Host.Outcome β Fault Refusal) :
    andThen (.fault r) f = .fault r := rfl
@[simp] theorem andThen_refused {α β : Type} (r : Refusal) (f : α → Host.Outcome β Fault Refusal) :
    andThen (.refused r) f = .refused r := rfl

/-- A sequence answers a next state exactly when both its parts do. -/
theorem andThen_eq_next {α β : Type} {o : Host.Outcome α Fault Refusal} {f : α → Host.Outcome β Fault Refusal} {b : β} :
    andThen o f = .next b ↔ ∃ a, o = .next a ∧ f a = .next b := by
  cases o <;> simp

theorem andThen_assoc {α β γ : Type} (o : Host.Outcome α Fault Refusal) (f : α → Host.Outcome β Fault Refusal)
    (g : β → Host.Outcome γ Fault Refusal) :
    andThen (andThen o f) g = andThen o fun a => andThen (f a) g := by
  cases o <;> rfl

/-! ### Buffer primitives -/

theorem bufRead_of_lt {i : Nat} {s : State} (h : i < s.capacity) : bufRead i s = .next (s.buf.read i) := by
  simp [bufRead, Nat.not_le.mpr h]

theorem bufRead_of_ge {i : Nat} {s : State} (h : s.capacity ≤ i) : bufRead i s = .fault (.bound i) := by
  simp [bufRead, h]

/-- What a buffer read that answers has done. -/
theorem bufRead_eq_next {i : Nat} {s : State} {b : Byte} :
    bufRead i s = .next b ↔ i < s.capacity ∧ b = s.buf.read i := by
  by_cases h : s.capacity ≤ i
  · simp [bufRead, h]
  · simp [bufRead, h, Nat.not_le.mp h, eq_comm]

theorem bufSpan_of_le {lo n : Nat} {s : State} (h : lo + n ≤ s.capacity) :
    bufSpan lo n s = .next (s.buf.span lo n) := by
  induction n generalizing lo with
  | zero => rfl
  | succ k ih =>
    rw [bufSpan, bufRead_of_lt (by omega), andThen_next, ih (by omega), andThen_next, Memory.span_succ]

/-- What a span read that answers has read. -/
theorem bufSpan_next {lo n : Nat} {s : State} {bs : List Byte} (h : bufSpan lo n s = .next bs) :
    bs = s.buf.span lo n := by
  induction n generalizing lo bs with
  | zero => simpa [bufSpan, eq_comm] using h
  | succ k ih =>
    rw [bufSpan] at h
    obtain ⟨b, hb, h⟩ := andThen_eq_next.mp h
    obtain ⟨rest, hr, h⟩ := andThen_eq_next.mp h
    injection h with h
    rw [← h, ih hr, (bufRead_eq_next.mp hb).2, Memory.span_succ]

theorem bufWrite_of_lt {i : Nat} {s : State} (v : Byte) (h : i < s.capacity) :
    bufWrite i v s = .next { s with buf := s.buf.write i v } := by
  simp [bufWrite, Nat.not_le.mpr h]

/-- `Store(b)` with CURSOR inside the buffer. -/
theorem store_of_lt {s : State} (b : Byte) (h : s.cursor < s.capacity) : store b s = .next (s.stored b) := by
  rw [store, bufWrite_of_lt b h]
  rfl

theorem store_of_ge {s : State} (b : Byte) (h : s.capacity ≤ s.cursor) : store b s = .fault (.bound s.cursor) := by
  simp [store, bufWrite, h]

/-- What a store that answers has done. -/
theorem store_eq_next {b : Byte} {s t : State} :
    store b s = .next t ↔ s.cursor < s.capacity ∧ t = s.stored b := by
  by_cases h : s.cursor < s.capacity
  · simp [store_of_lt b h, h, eq_comm]
  · simp [store_of_ge b (Nat.not_lt.mp h), h]

/-- The start of a frame in a buffer of at least one byte. -/
theorem startFrame_of_pos {s : State} (h : 0 < s.capacity) :
    startFrame s = .next ((s.clearCursor.stored Config.preamble1).setState Config.sp2) := by
  rw [startFrame, store_of_lt _ (by simpa using h), andThen_next]

theorem startFrame_eq_next {s t : State} :
    startFrame s = .next t ↔ 0 < s.capacity ∧ t = (s.clearCursor.stored Config.preamble1).setState Config.sp2 := by
  rw [startFrame, andThen_eq_next]
  constructor
  · rintro ⟨u, hu, h⟩
    obtain ⟨h0, rfl⟩ := store_eq_next.mp hu
    injection h with h
    exact ⟨by simpa using h0, h.symm⟩
  · rintro ⟨h, rfl⟩
    exact ⟨_, store_of_lt _ (by simpa using h), rfl⟩

/-! ### Transport primitives -/

theorem rxRead_cons {s : State} {b : Byte} {rest : List Byte} (h : s.rxq = b :: rest) :
    rxRead s = .next (b, { s with rxq := rest }) := by
  simp [rxRead, h]

theorem rxRead_nil {s : State} (h : s.rxq = []) : rxRead s = .refused .readEmpty := by
  simp [rxRead, h]

theorem rxAvailable_eq_false {s : State} : s.rxAvailable = false ↔ s.rxq = [] := by
  simp [State.rxAvailable]

/-- What a move of the transport that answers has done. -/
theorem transportMove_next {s t : State} (h : transportMove s = .next t) :
    (s.arrivals = [] ∧ s.endless = false ∧ t = s) ∨
      ∃ bs rest, s.arrivals = bs :: rest ∧ t = { s.received bs with arrivals := rest } := by
  unfold transportMove at h
  split at h
  · rename_i bs rest ha
    injection h with h
    exact .inr ⟨bs, rest, ha, h.symm⟩
  · rename_i ha
    split at h
    · cases h
    · rename_i he
      injection h with h
      exact .inl ⟨ha, by simpa using he, h.symm⟩

/-! ### Operands -/

theorem needPacket_eq_next {w : OpWord} {s t : State} : needPacket w s = .next t ↔ s.pktValid = true ∧ t = s := by
  cases h : s.pktValid <;> simp [needPacket, h, eq_comm]

theorem viewIndex_eq_next {i : Byte} {s : State} {k : Nat} :
    viewIndex i s = .next k ↔ i.toNat < s.pktLen.toNat ∧ k = 4 + i.toNat := by
  by_cases h : s.pktLen.toNat ≤ i.toNat
  · simp [viewIndex, h]
  · simp [viewIndex, h, Nat.not_le.mp h, Config.dataStartOffset, eq_comm]

theorem sendOperands_eq_next {w : OpWord} {len : Byte} {data d : List Byte} :
    sendOperands w len data = .next d ↔ data.length = len.toNat ∧ d = data := by
  by_cases h : data.length = len.toNat <;> simp [sendOperands, h, eq_comm]

/-- What a frame that is sent or rejected leaves: everything but TXLOG and the result. -/
theorem sendFrame_next {t : Byte} {data : List Byte} {s u : State} (h : sendFrame t data s = .next u) :
    (encodeFn checksumFn s.capacity t data = .rejected ∧ u = s.returns (.sent .rejected)) ∨
      ∃ f, encodeFn checksumFn s.capacity t data = .ok f ∧ u = (s.txWrite f).returns (.sent .ok) := by
  unfold sendFrame at h
  split at h <;> rename_i he <;> injection h with h
  · exact .inr ⟨_, he, h.symm⟩
  · exact .inl ⟨he, h.symm⟩

/-! ### The step -/

/-- What a step that answers has done: nothing, a host operation, or an append of the transport. -/
theorem moveUnlessMarked_next {s t : State} (h : moveUnlessMarked s = .next t) :
    (s.faultMark = none ∧ s.refusedMark = none) ∧
      ((s.script = [] ∧ t = s) ∨
        (∃ c rest i, s.script = .call c :: rest ∧ decodeHost c = .ok i ∧ exec i s.moved = .next t) ∨
        ∃ bs rest, s.script = .rx bs :: rest ∧ t = s.moved.received bs) := by
  unfold moveUnlessMarked at h
  split at h
  · cases h
  rename_i hf
  split at h
  · cases h
  rename_i hr
  refine ⟨⟨hf, hr⟩, ?_⟩
  unfold move at h
  split at h
  · injection h with h
    exact .inl ⟨‹_›, h.symm⟩
  · rename_i c rest hs
    unfold issue at h
    split at h
    · exact .inr (.inl ⟨c, rest, _, hs, ‹_›, h⟩)
    · cases h
  · rename_i bs rest hs
    injection h with h
    exact .inr (.inr ⟨bs, rest, hs, h.symm⟩)

end Sys2Proof.Machine
end

