-- ==== Sys2Proof/Laws/PerInstr.lean ====
section
/-! SUPPORT. For every instruction: its encoding has the fixed bits of its row of spec/opcode_table.json. -/

namespace Sys2Proof.Laws.TableWord

open Sys2Proof

/-- The mask and the match of an instruction's row of the opcode table, as the table prints them. -/
def row (i : Instr) : Nat × Nat :=
  match i with
  | .processInput => (0xFFF, 0x000)
  | .reset => (0xFFF, 0x100)
  | .getState => (0xFFF, 0x200)
  | .getPacket => (0xFFF, 0x300)
  | .pktHasData => (0xFFF, 0x400)
  | .pktReadData _ => (0xF00, 0x500)
  | .sendPacket0 _ => (0xF00, 0x600)
  | .sendPacket1 _ _ => (0xF00, 0x700)
  | .sendPacket _ _ _ => (0xF00, 0x800)
  | .checksum _ => (0xFFF, 0x900)
  | .encodeFrame _ _ => (0xF00, 0xA00)
  | .decodeFrame _ => (0xFFF, 0xB00)
  | .hasPacket => (0xFFF, 0xC00)
  | .reservedD _ => (0xF00, 0xD00)
  | .reservedE _ => (0xF00, 0xE00)
  | .reservedF _ => (0xF00, 0xF00)
  | .sp1Pre1 => (0x7FF, 0x0F0)
  | .sp1Other _ => (0x700, 0x000)
  | .sp2Pre2 => (0x7FF, 0x1CA)
  | .sp2Pre1 => (0x7FF, 0x1F0)
  | .sp2Other _ => (0x700, 0x100)
  | .rcStore _ => (0x700, 0x200)
  | .rcOverflow _ => (0x700, 0x200)
  | .rcEnd _ => (0x700, 0x200)
  | .spo1Post1 => (0x7FF, 0x353)
  | .spo1Other _ => (0x700, 0x300)
  | .spo2Post2Ok => (0x7FF, 0x40F)
  | .spo2Post2Bad => (0x7FF, 0x40F)
  | .spo2Other _ => (0x700, 0x400)
  | .boPre1 => (0x7FF, 0x5F0)
  | .boOther _ => (0x700, 0x500)
  | .illegalState _ _ => (0x600, 0x600)

/-- A host word is 12 bits, a receive key 11. -/
def Statement (i : Instr) : Prop :=
  match encode i with
  | .host c => c.word &&& BitVec.ofNat 12 (row i).1 = BitVec.ofNat 12 (row i).2
  | .key k => k &&& BitVec.ofNat 11 (row i).1 = BitVec.ofNat 11 (row i).2

/-- A mask of ones over the high field keeps that field and clears the low one. -/
theorem high_of_mask {n m : Nat} (x : BitVec n) (y : BitVec m) :
    (x ++ y) &&& (BitVec.allOnes n ++ 0#m) = x ++ 0#m := by
  apply BitVec.eq_of_getLsbD_eq
  intro i hi
  simp only [BitVec.getLsbD_and, BitVec.getLsbD_append, BitVec.getLsbD_allOnes, BitVec.getLsbD_zero]
  by_cases h : i < m <;> simp [h]
  exact fun _ => by omega

/-- The mask 0xF00 keeps the operation code of a host word. -/
theorem op_of_mask (op : BitVec 4) (arg : Byte) {w : OpWord} (h : opWord op 0#8 = w) :
    opWord op arg &&& 0xF00#12 = w :=
  (high_of_mask op arg).trans h

/-- The mask 0xFFF keeps a host word whole. -/
theorem full_mask (w : OpWord) {v : OpWord} (h : w = v) : w &&& 0xFFF#12 = v :=
  (BitVec.and_allOnes (x := w)).trans h

/-- The mask 0x700 keeps the parse state of a key. -/
theorem state_of_mask (st : StateCode) (b : Byte) {k : RxKey} (h : rxKey st 0#8 = k) :
    rxKey st b &&& 0x700#11 = k :=
  (high_of_mask st b).trans h

theorem processInput : Statement .processInput := by rfl
theorem reset : Statement .reset := by rfl
theorem getState : Statement .getState := by rfl
theorem getPacket : Statement .getPacket := by rfl
theorem pktHasData : Statement .pktHasData := by rfl
theorem pktReadData (i : Byte) : Statement (.pktReadData i) :=
  op_of_mask 0x5#4 i (w := 0x500#12) rfl
theorem sendPacket0 (t : Byte) : Statement (.sendPacket0 t) :=
  op_of_mask 0x6#4 t (w := 0x600#12) rfl
theorem sendPacket1 (t : Byte) (d : Byte) : Statement (.sendPacket1 t d) :=
  op_of_mask 0x7#4 t (w := 0x700#12) rfl
theorem sendPacket (t : Byte) (len : Byte) (data : List Byte) : Statement (.sendPacket t len data) :=
  op_of_mask 0x8#4 t (w := 0x800#12) rfl
theorem checksum (bytes : List Byte) : Statement (.checksum bytes) :=
  full_mask (opWord 0x9#4 0#8) (v := 0x900#12) rfl
theorem encodeFrame (t : Byte) (data : List Byte) : Statement (.encodeFrame t data) :=
  op_of_mask 0xA#4 t (w := 0xA00#12) rfl
theorem decodeFrame (bytes : List Byte) : Statement (.decodeFrame bytes) :=
  full_mask (opWord 0xB#4 0#8) (v := 0xB00#12) rfl
theorem hasPacket : Statement .hasPacket := by rfl
theorem reservedD (arg : Byte) : Statement (.reservedD arg) :=
  op_of_mask 0xD#4 arg (w := 0xD00#12) rfl
theorem reservedE (arg : Byte) : Statement (.reservedE arg) :=
  op_of_mask 0xE#4 arg (w := 0xE00#12) rfl
theorem reservedF (arg : Byte) : Statement (.reservedF arg) :=
  op_of_mask 0xF#4 arg (w := 0xF00#12) rfl
theorem sp1Pre1 : Statement .sp1Pre1 := by rfl
theorem sp1Other (b : Byte) : Statement (.sp1Other b) :=
  state_of_mask 0#3 b (k := 0x000#11) rfl
theorem sp2Pre2 : Statement .sp2Pre2 := by rfl
theorem sp2Pre1 : Statement .sp2Pre1 := by rfl
theorem sp2Other (b : Byte) : Statement (.sp2Other b) :=
  state_of_mask 1#3 b (k := 0x100#11) rfl
theorem rcStore (b : Byte) : Statement (.rcStore b) :=
  state_of_mask 2#3 b (k := 0x200#11) rfl
theorem rcOverflow (b : Byte) : Statement (.rcOverflow b) :=
  state_of_mask 2#3 b (k := 0x200#11) rfl
theorem rcEnd (b : Byte) : Statement (.rcEnd b) :=
  state_of_mask 2#3 b (k := 0x200#11) rfl
theorem spo1Post1 : Statement .spo1Post1 := by rfl
theorem spo1Other (b : Byte) : Statement (.spo1Other b) :=
  state_of_mask 3#3 b (k := 0x300#11) rfl
theorem spo2Post2Ok : Statement .spo2Post2Ok := by rfl
theorem spo2Post2Bad : Statement .spo2Post2Bad := by rfl
theorem spo2Other (b : Byte) : Statement (.spo2Other b) :=
  state_of_mask 4#3 b (k := 0x400#11) rfl
theorem boPre1 : Statement .boPre1 := by rfl
theorem boOther (b : Byte) : Statement (.boOther b) :=
  state_of_mask 5#3 b (k := 0x500#11) rfl
theorem illegalState (low : BitVec 1) (b : Byte) : Statement (.illegalState low b) := by
  revert low b; unfold Statement row encode rxKey; decide

end Sys2Proof.Laws.TableWord
end

