-- ==== Sys2Proof/Laws/Receive.lean ====
section
/-! SUPPORT. What the receive step, `feed` and the loop of PROCESS_INPUT can do, said once. -/

namespace Sys2Proof.Machine

/-! ### Selecting the row -/

/-- Outside ReceiveCommand, and SearchPostamble2 at POSTAMBLE2, no condition is looked at. -/
theorem rxCond_plain {b : Byte} {s : State} (h1 : s.state ≠ Config.rc)
    (h2 : ¬ (s.state = Config.spo2 ∧ b = Config.postamble2)) : rxCond b s = .next noCond := by
  simp [rxCond, h1, h2]

/-- The receive step where no condition is looked at. -/
theorem rxStep_plain {b : Byte} {s : State} (h1 : s.state ≠ Config.rc)
    (h2 : ¬ (s.state = Config.spo2 ∧ b = Config.postamble2)) :
    rxStep b s = runRow (rowOfKey (rxKey s.state b) noCond) b s := by
  rw [rxStep, rxCond_plain h1 h2, andThen_next]

/-- The conditions of ReceiveCommand after a store, while BUF[3] can be read. -/
theorem commandCond_eq {s : State} (h : 3 < s.capacity) :
    commandCond s = .next ⟨decide (s.cursor = 4 ∧ s.capacity < 7 + s.n),
      decide (5 ≤ s.cursor ∧ s.cursor = 5 + s.n), false⟩ := by
  unfold commandCond
  split
  · have h4 : s.cursor ≠ 4 := by omega
    have h5 : ¬ 5 ≤ s.cursor := by omega
    simp [noCond, h4, h5]
  · rw [show Config.dataLengthOffset = 3 from rfl, bufRead_of_lt h, andThen_next]
    simp only [oversized, Bool.decide_and]
    rfl

/-- The checksum validator, while the frame lies inside the buffer. -/
theorem checksumMatches_eq {s : State} (h3 : 3 < s.capacity) (h : 4 + s.n < s.capacity) :
    checksumMatches s = .next (decide (s.buf.read (4 + s.n) = checksumFn (s.buf.span 2 (2 + s.n)))) := by
  unfold checksumMatches
  unfold State.n at *
  rw [show Config.dataLengthOffset = 3 from rfl, show Config.typeOffset = 2 from rfl, bufRead_of_lt h3, andThen_next,
    bufRead_of_lt h, andThen_next, bufSpan_of_le (by omega), andThen_next]

/-! ### What a row can do -/

/-- A row that answers changes only the block's fields and the logs of publications and absorbed errors. -/
theorem runRow_frame {r : RxRow} {b : Byte} {s t : State} (h : runRow r b s = .next t) :
    t = { s with state := t.state, cursor := t.cursor, usedLen := t.usedLen, buf := t.buf, pktValid := t.pktValid,
                 pktType := t.pktType, pktLen := t.pktLen, publog := t.publog, trace := t.trace } := by
  cases r <;>
    simp only [runRow, execSp1Pre1, execSp1Other, execSp2Pre2, execSp2Pre1, execSp2Other, execRcStore, execRcOverflow,
      execRcEnd, execSpo1Post1, execSpo1Other, execSpo2Post2Ok, execSpo2Post2Bad, execSpo2Other, execBoPre1,
      execBoOther, execIllegalState, publishFrame, andThen_eq_next, startFrame_eq_next, store_eq_next,
      Host.Outcome.next.injEq, reduceCtorEq] at h
  case spo2Post2Ok =>
    obtain ⟨_, ⟨_, rfl⟩, _, ⟨_, _, _, _, _, _, rfl⟩, rfl⟩ := h
    rfl
  all_goals first
    | (subst h; rfl)
    | (obtain ⟨_, rfl⟩ := h; rfl)
    | (obtain ⟨_, ⟨_, rfl⟩, rfl⟩ := h; rfl)

theorem rxStep_frame {b : Byte} {s t : State} (h : rxStep b s = .next t) :
    t = { s with state := t.state, cursor := t.cursor, usedLen := t.usedLen, buf := t.buf, pktValid := t.pktValid,
                 pktType := t.pktType, pktLen := t.pktLen, publog := t.publog, trace := t.trace } := by
  obtain ⟨c, _, h⟩ := andThen_eq_next.mp h
  exact runRow_frame h

/-! ### `feed` and the loop -/

@[simp] theorem feed_nil (s : State) : feed [] s = .next s := rfl

theorem feed_cons (b : Byte) (bs : List Byte) (s : State) : feed (b :: bs) s = andThen (rxStep b s) (feed bs) := rfl

theorem feed_append (xs ys : List Byte) (s : State) : feed (xs ++ ys) s = andThen (feed xs s) (feed ys) := by
  induction xs generalizing s with
  | nil => rfl
  | cons b xs ih =>
    rw [List.cons_append, feed_cons, feed_cons, andThen_assoc]
    congr 1
    funext u
    exact ih u

theorem drain_empty {k : Nat} {s : State} (h : s.rxq = []) : drain k s = .next s := by
  cases k with
  | zero => rfl
  | succ k => simp [drain, rxAvailable_eq_false.mpr h]

theorem drain_cons {k : Nat} {s : State} {b : Byte} {rest : List Byte} (h : s.rxq = b :: rest) :
    drain (k + 1) s =
      andThen (rxStep b { s with rxq := rest }) fun u => andThen (transportMove u) (drain k) := by
  simp [drain, State.rxAvailable, h, rxRead_cons h]

/-- A property that every receive step and every move of the transport keeps holds after the loop. -/
theorem drain_induct {P : State → Prop}
    (hread : ∀ s rest, P s → P { s with rxq := rest })
    (hstep : ∀ b s t, P s → rxStep b s = .next t → P t)
    (hmove : ∀ s t, P s → transportMove s = .next t → P t)
    {k : Nat} {s t : State} (hs : P s) (h : drain k s = .next t) : P t := by
  induction k generalizing s with
  | zero =>
    injection h with h
    exact h ▸ hs
  | succ k ih =>
    cases hq : s.rxq with
    | nil =>
      rw [drain_empty hq] at h
      injection h with h
      exact h ▸ hs
    | cons b rest =>
      rw [drain_cons hq] at h
      obtain ⟨u, hu, h⟩ := andThen_eq_next.mp h
      obtain ⟨v, hv, h⟩ := andThen_eq_next.mp h
      exact ih (hmove _ _ (hstep _ _ _ (hread _ _ hs) hu) hv) h

end Sys2Proof.Machine
end

