-- ==== Sys2Proof/Tests/Slice0.lean ====
section
/-! SUPPORT. The model's own tests: ill-formed terms that WellFormed refuses, words written out bit by bit from the
spec's encodings, one-step tests whose expected results are the vectors of spec/95_test_vectors.md (named in each
comment), and for every statement with hypotheses a state and operands that meet them. -/

namespace Sys2Proof.Tests

open Sys2Proof Sys2Proof.Machine

/-! ### Helpers -/

/-- The next state, when there is one. -/
def outState (o : Host.Outcome State Fault Refusal) : Option State :=
  match o with
  | .next t => some t
  | .fault _ => none
  | .refused _ => none

/-- The fault, when there is one. -/
def outFault (o : Host.Outcome State Fault Refusal) : Option Fault :=
  match o with
  | .next _ => none
  | .fault f => some f
  | .refused _ => none

/-- The refusal, when there is one. -/
def outRefusal (o : Host.Outcome State Fault Refusal) : Option Refusal :=
  match o with
  | .next _ => none
  | .fault _ => none
  | .refused r => some r

/-- The result a host operation leaves. -/
def outResult (o : Host.Outcome State Fault Refusal) : Option Result := (outState o).bind State.result

/-- A state in the middle of a frame: parse state, CURSOR, buffer. -/
def frameState (st : StateCode) (cur : Nat) (m : Memory) : State :=
  { State.reset with state := st, cursor := cur, usedLen := cur, buf := m }

/-- In SearchPreamble2 after an F0. -/
def sPre2 : State := frameState 1#3 1 [(0, 0xF0#8)]
/-- In ReceiveCommand before TYPE. -/
def sType : State := frameState 2#3 2 [(0, 0xF0#8), (1, 0xCA#8)]
/-- In ReceiveCommand before LENGTH. -/
def sLen : State := frameState 2#3 3 [(0, 0xF0#8), (1, 0xCA#8), (2, 0x02#8)]
/-- In ReceiveCommand before the checksum of the longest frame, N = 25. -/
def sSum : State := frameState 2#3 29 [(0, 0xF0#8), (1, 0xCA#8), (2, 0x02#8), (3, 0x19#8)]
/-- In SearchPostamble1 of an empty frame. -/
def sPost1 : State := frameState 3#3 5 [(0, 0xF0#8), (1, 0xCA#8)]
/-- In SearchPostamble2 of `F0 CA 00 00 00 53`, whose checksum matches. -/
def sPost2 : State := frameState 4#3 6 [(0, 0xF0#8), (1, 0xCA#8), (5, 0x53#8)]
/-- In SearchPostamble2 of `F0 CA 00 00 01 53`, whose checksum differs. -/
def sPost2Bad : State := frameState 4#3 6 [(0, 0xF0#8), (1, 0xCA#8), (4, 0x01#8), (5, 0x53#8)]
/-- In BufferOverflow after `F0 CA 02 1A`. -/
def sOver : State := frameState 5#3 4 [(0, 0xF0#8), (1, 0xCA#8), (2, 0x02#8), (3, 0x1A#8)]
/-- In SearchPostamble2 at the last index of the smallest buffer, CAPACITY = 7. -/
def sPost2Small : State := { sPost2 with capacity := 7 }
/-- After `F0 CA 01 01 05 07 53 0F` was published. -/
def sPacket : State :=
  { frameState 0#3 8 [(0, 0xF0#8), (1, 0xCA#8), (2, 0x01#8), (3, 0x01#8), (4, 0x05#8), (5, 0x07#8), (6, 0x53#8),
                      (7, 0x0F#8)] with
    pktValid := true, pktType := 0x01#8, pktLen := 0x01#8, publog := [⟨0x01#8, 0x01#8, [0x05#8]⟩] }
/-- After `F0 CA 00 00 00 53 0F` was published: an empty Packet. -/
def sEmptyPacket : State :=
  { frameState 0#3 7 [(0, 0xF0#8), (1, 0xCA#8), (5, 0x53#8), (6, 0x0F#8)] with
    pktValid := true, pktType := 0x00#8, pktLen := 0x00#8, publog := [⟨0x00#8, 0x00#8, []⟩] }

/-- The frame of X1. -/
def frame0 : List Byte := [0xF0#8, 0xCA#8, 0x00#8, 0x00#8, 0x00#8, 0x53#8, 0x0F#8]
/-- The frame of S1. -/
def frame1 : List Byte := [0xF0#8, 0xCA#8, 0x01#8, 0x01#8, 0x05#8, 0x07#8, 0x53#8, 0x0F#8]

/-- A state whose next move is a call. -/
def calling (c : HostCall) : State := withCall c State.reset

/-! ### WellFormed: an ill-formed term for each check -/

theorem test_illFormed_sendPacket_length : (Instr.sendPacket 0x10#8 0x03#8 [0xF0#8, 0xCA#8]).wellFormed = false := by
  decide
theorem test_illFormed_sp1Other : (Instr.sp1Other 0xF0#8).wellFormed = false := by decide
theorem test_illFormed_sp2Other_pre2 : (Instr.sp2Other 0xCA#8).wellFormed = false := by decide
theorem test_illFormed_sp2Other_pre1 : (Instr.sp2Other 0xF0#8).wellFormed = false := by decide
theorem test_illFormed_spo1Other : (Instr.spo1Other 0x53#8).wellFormed = false := by decide
theorem test_illFormed_spo2Other : (Instr.spo2Other 0x0F#8).wellFormed = false := by decide
theorem test_illFormed_boOther : (Instr.boOther 0xF0#8).wellFormed = false := by decide
theorem test_wellFormed_default_rows :
    (Instr.sp1Other 0xCA#8).wellFormed = true ∧ (Instr.spo1Other 0xF0#8).wellFormed = true := by decide

/-! ### Decoding: words written out from 30_encoding R70 (OP in bits 11 to 8, ARG in bits 7 to 0) -/

theorem test_decode_processInput : decodeHost { word := 0b000000000000#12 } = .ok .processInput := by rfl
theorem test_decode_reset : decodeHost { word := 0b000100000000#12 } = .ok .reset := by rfl
theorem test_decode_getState : decodeHost { word := 0b001000000000#12 } = .ok .getState := by rfl
theorem test_decode_getPacket : decodeHost { word := 0b001100000000#12 } = .ok .getPacket := by rfl
theorem test_decode_pktHasData : decodeHost { word := 0b010000000000#12 } = .ok .pktHasData := by rfl
theorem test_decode_pktReadData : decodeHost { word := 0b010110000001#12 } = .ok (.pktReadData 0x81#8) := by rfl
theorem test_decode_sendPacket0 : decodeHost { word := 0b011011111110#12 } = .ok (.sendPacket0 0xFE#8) := by rfl
theorem test_decode_sendPacket1 :
    decodeHost { word := 0b011100000001#12, d := 0x05#8 } = .ok (.sendPacket1 0x01#8 0x05#8) := by rfl
theorem test_decode_sendPacket :
    decodeHost { word := 0b100000010000#12, len := 0x02#8, list := [0xF0#8, 0xCA#8] } =
      .ok (.sendPacket 0x10#8 0x02#8 [0xF0#8, 0xCA#8]) := by rfl
theorem test_decode_checksum :
    decodeHost { word := 0b100100000000#12, list := [0x80#8] } = .ok (.checksum [0x80#8]) := by rfl
theorem test_decode_encodeFrame :
    decodeHost { word := 0b101000000001#12, list := [0x05#8] } = .ok (.encodeFrame 0x01#8 [0x05#8]) := by rfl
theorem test_decode_decodeFrame :
    decodeHost { word := 0b101100000000#12, list := [0xF0#8] } = .ok (.decodeFrame [0xF0#8]) := by rfl
theorem test_decode_hasPacket : decodeHost { word := 0b110000000000#12 } = .ok .hasPacket := by rfl
theorem test_decode_reservedD : decodeHost { word := 0b110100000000#12 } = .ok (.reservedD 0x00#8) := by rfl
theorem test_decode_reservedE : decodeHost { word := 0b111010000000#12 } = .ok (.reservedE 0x80#8) := by rfl
theorem test_decode_reservedF : decodeHost { word := 0b111100010010#12 } = .ok (.reservedF 0x12#8) := by rfl
/-- Vectors E3 to E5. -/
theorem test_decode_nonzero_arg :
    decodeHost { word := 0x201#12 } = .error (.nonzeroArg 0x201#12) ∧
    decodeHost { word := 0x001#12 } = .error (.nonzeroArg 0x001#12) ∧
    decodeHost { word := 0xC01#12 } = .error (.nonzeroArg 0xC01#12) := ⟨rfl, rfl, rfl⟩

/-! ### Decoding: keys written out from 30_encoding R68 (STATE in bits 10 to 8, the byte in bits 7 to 0) -/

theorem test_decode_sp1Pre1 : decodeKey 0b00011110000#11 noCond = .sp1Pre1 := by decide
theorem test_decode_sp1Other : decodeKey 0b00011001010#11 noCond = .sp1Other 0xCA#8 := by decide
theorem test_decode_sp2Pre2 : decodeKey 0b00111001010#11 noCond = .sp2Pre2 := by decide
theorem test_decode_sp2Pre1 : decodeKey 0b00111110000#11 noCond = .sp2Pre1 := by decide
theorem test_decode_sp2Other : decodeKey 0b00100100010#11 noCond = .sp2Other 0x22#8 := by decide
theorem test_decode_rcStore : decodeKey 0b01011110000#11 noCond = .rcStore 0xF0#8 := by decide
theorem test_decode_rcOverflow : decodeKey 0b01000011010#11 ⟨true, false, false⟩ = .rcOverflow 0x1A#8 := by decide
theorem test_decode_rcEnd : decodeKey 0b01000000111#11 ⟨false, true, false⟩ = .rcEnd 0x07#8 := by decide
theorem test_decode_spo1Post1 : decodeKey 0b01101010011#11 noCond = .spo1Post1 := by decide
theorem test_decode_spo1Other : decodeKey 0b01111110000#11 noCond = .spo1Other 0xF0#8 := by decide
theorem test_decode_spo2Post2Ok : decodeKey 0b10000001111#11 ⟨false, false, true⟩ = .spo2Post2Ok := by decide
theorem test_decode_spo2Post2Bad : decodeKey 0b10000001111#11 noCond = .spo2Post2Bad := by decide
theorem test_decode_spo2Other : decodeKey 0b10001010011#11 noCond = .spo2Other 0x53#8 := by decide
theorem test_decode_boPre1 : decodeKey 0b10111110000#11 noCond = .boPre1 := by decide
theorem test_decode_boOther : decodeKey 0b10111001010#11 noCond = .boOther 0xCA#8 := by decide
theorem test_decode_illegalState : decodeKey 0b11100000001#11 noCond = .illegalState 1#1 0x01#8 := by decide

/-! ### Receive rows: the vectors of 95_test_vectors section 2.1 -/

/-- R-SP1a. -/
theorem test_sp1Pre1 :
    (outState (rxStep 0xF0#8 { State.reset with cursor := 9, pktValid := true })).map
      (fun t => (t.state, t.cursor, t.buf.read 0, t.pktValid)) = some (1#3, 1, 0xF0#8, false) := by decide
/-- R-SP1b. -/
theorem test_sp1Other :
    outState (rxStep 0xCA#8 { State.reset with cursor := 9, pktValid := true }) =
      some { State.reset with cursor := 9, pktValid := true } := by decide
/-- R-SP2a. -/
theorem test_sp2Pre2 :
    (outState (rxStep 0xCA#8 sPre2)).map (fun t => (t.state, t.cursor, t.buf.read 1)) = some (2#3, 2, 0xCA#8) := by
  decide
/-- R-SP2b. -/
theorem test_sp2Pre1 :
    (outState (rxStep 0xF0#8 sPre2)).map (fun t => (t.state, t.cursor, t.trace)) =
      some (1#3, 1, [⟨.framing, .sp2Pre1⟩]) := by decide
/-- R-SP2c. -/
theorem test_sp2Other :
    (outState (rxStep 0x00#8 sPre2)).map (fun t => (t.state, t.cursor, t.trace)) =
      some (0#3, 1, [⟨.framing, .sp2Other⟩]) := by decide
/-- R-RC1. -/
theorem test_rcStore_type :
    (outState (rxStep 0x01#8 sType)).map (fun t => (t.state, t.cursor, t.buf.read 2)) = some (2#3, 3, 0x01#8) := by
  decide
/-- R-RC2: N = 25 fits. -/
theorem test_rcStore_longest :
    (outState (rxStep 0x19#8 sLen)).map (fun t => (t.state, t.cursor, t.buf.read 3)) = some (2#3, 4, 0x19#8) := by
  decide
/-- R-RC4. -/
theorem test_rcOverflow :
    (outState (rxStep 0x1A#8 sLen)).map (fun t => (t.state, t.cursor, t.buf.read 3, t.trace)) =
      some (5#3, 4, 0x1A#8, [⟨.overflow, .rcOverflow⟩]) := by decide
/-- R-RC6: exact arithmetic. -/
theorem test_rcOverflow_no_wrap : (outState (rxStep 0xF9#8 sLen)).map State.state = some 5#3 := by decide
/-- R-RC3. -/
theorem test_rcEnd_longest :
    (outState (rxStep 0x47#8 sSum)).map (fun t => (t.state, t.cursor, t.buf.read 29)) = some (3#3, 30, 0x47#8) := by
  decide
/-- R-RC7. -/
theorem test_rcEnd_empty :
    (outState (rxStep 0x00#8 (frameState 2#3 4 [(0, 0xF0#8), (1, 0xCA#8)]))).map (fun t => (t.state, t.cursor)) =
      some (3#3, 5) := by decide
/-- R-SPO1a. -/
theorem test_spo1Post1 :
    (outState (rxStep 0x53#8 sPost1)).map (fun t => (t.state, t.cursor, t.buf.read 5)) = some (4#3, 6, 0x53#8) := by
  decide
/-- R-SPO1b. -/
theorem test_spo1Other :
    (outState (rxStep 0xF0#8 sPost1)).map (fun t => (t.state, t.cursor, t.trace)) =
      some (0#3, 5, [⟨.framing, .spo1Other⟩]) := by decide
/-- R-SPO2a. -/
theorem test_spo2Post2Ok :
    (outState (rxStep 0x0F#8 sPost2)).map (fun t => (t.state, t.cursor, t.pktValid)) = some (0#3, 7, true) ∧
    (outState (rxStep 0x0F#8 sPost2)).map (fun t => (t.pktType, t.pktLen, t.publog)) =
      some (0x00#8, 0x00#8, [⟨0x00#8, 0x00#8, []⟩]) := ⟨by decide, by decide⟩
/-- R-SPO2b. -/
theorem test_spo2Post2Bad :
    (outState (rxStep 0x0F#8 sPost2Bad)).map (fun t => (t.state, t.cursor, t.pktValid, t.publog, t.trace)) =
      some (0#3, 7, false, [], [⟨.checksum, .spo2Post2Bad⟩]) := by decide
/-- R-SPO2c. -/
theorem test_spo2Other :
    (outState (rxStep 0x53#8 sPost2)).map (fun t => (t.state, t.cursor, t.trace)) =
      some (0#3, 6, [⟨.framing, .spo2Other⟩]) := by decide
/-- R-BO1. -/
theorem test_boPre1 :
    (outState (rxStep 0xF0#8 sOver)).map (fun t => (t.state, t.cursor, t.buf.read 0)) = some (1#3, 1, 0xF0#8) := by
  decide
/-- R-BO2. -/
theorem test_boOther : outState (rxStep 0xCA#8 sOver) = some sOver := by decide
/-- R-ILL. -/
theorem test_illegalState :
    outFault (rxStep 0x01#8 (frameState 6#3 0 [])) = some (.illegalState 6#3 0x01#8) := by decide

/-! ### Host operations: the vectors of sections 2.2 to 2.9 -/

/-- S1. -/
theorem test_processInput_frame :
    (outState (exec .processInput { State.reset with rxq := frame1 })).map
      (fun t => (t.state, t.cursor, t.publog, t.rxq)) = some (0#3, 8, [⟨0x01#8, 0x01#8, [0x05#8]⟩], []) := by decide
/-- S7, with the LENGTH byte arriving only after the first receive step (20_memory R48). -/
theorem test_processInput_arrivals :
    (outState (exec .processInput { State.reset with rxq := [0xF0#8], arrivals := [[0xCA#8, 0x02#8], [0x1A#8]] })).map
      (fun t => (t.state, t.cursor, t.rxq, t.arrivals)) = some (5#3, 4, [], []) := by decide
/-- H18. -/
theorem test_reset :
    (outState (exec .reset sLen)).map (fun t => (t.state, t.cursor, t.usedLen)) = some (0#3, 0, 0) ∧
    (outState (exec .reset sPacket)).map (fun t => (t.pktValid, t.pktLen)) = some (false, 0x01#8) :=
  ⟨by decide, by decide⟩
/-- H2. -/
theorem test_getState : outResult (exec .getState sOver) = some (.stateCode 5#3) := by decide
/-- H7. -/
theorem test_getPacket : outResult (exec .getPacket sPacket) = some (.packet 0x01#8 0x01#8 true) := by decide
/-- H5. -/
theorem test_getPacket_none : outFault (exec .getPacket State.reset) = some (.noPacket 0x300#12) := by decide
/-- H8, H12. -/
theorem test_pktHasData :
    outResult (exec .pktHasData sPacket) = some (.bool true) ∧
    outResult (exec .pktHasData sEmptyPacket) = some (.bool false) := by decide
/-- H9. -/
theorem test_pktReadData : outResult (exec (.pktReadData 0x00#8) sPacket) = some (.byte 0x05#8) := by decide
/-- H10, H16: the no-packet check is made first. -/
theorem test_pktReadData_faults :
    outFault (exec (.pktReadData 0x01#8) sPacket) = some (.viewIndex 0x01#8 0x01#8) ∧
    outFault (exec (.pktReadData 0x05#8) State.reset) = some (.noPacket 0x505#12) := by decide
/-- H4, H6. -/
theorem test_hasPacket :
    outResult (exec .hasPacket State.reset) = some (.bool false) ∧
    outResult (exec .hasPacket sPacket) = some (.bool true) := by decide
/-- C-CS3 to C-CS6. -/
theorem test_checksum :
    outResult (exec (.checksum [0x01#8, 0x01#8, 0x05#8]) State.reset) = some (.byte 0x07#8) ∧
    outResult (exec (.checksum [0x80#8, 0x80#8]) State.reset) = some (.byte 0x00#8) ∧
    outResult (exec (.checksum [0xFF#8, 0x02#8]) State.reset) = some (.byte 0x01#8) ∧
    outResult (exec (.checksum [0x10#8, 0x02#8, 0xF0#8, 0xCA#8]) State.reset) = some (.byte 0xCC#8) := by decide
/-- C-ENC2. -/
theorem test_encode : outResult (exec (.encodeFrame 0x01#8 [0x05#8]) State.reset) = some (.encoded (.ok frame1)) := by
  decide
/-- C-ENC6 to C-ENC8. -/
theorem test_encode_limits :
    outResult (exec (.encodeFrame 0x02#8 (List.replicate 26 0x00#8)) State.reset) = some (.encoded .rejected) ∧
    outResult (exec (.encodeFrame 0x01#8 [0x05#8]) { State.reset with capacity := 7 }) = some (.encoded .rejected) ∧
    outResult (exec (.encodeFrame 0x00#8 []) { State.reset with capacity := 7 }) = some (.encoded (.ok frame0)) := by
  decide
/-- C-DEC8, C-DEC11. -/
theorem test_decodeFrame :
    outResult (exec (.decodeFrame [0xF0#8, 0xCA#8, 0x10#8, 0x02#8, 0xF0#8, 0xCA#8, 0xCC#8, 0x53#8, 0x0F#8])
      State.reset) = some (.decoded (.ok ⟨0x10#8, 0x02#8, [0xF0#8, 0xCA#8]⟩)) ∧
    outResult (exec (.decodeFrame frame0) State.reset) = some (.decoded (.ok ⟨0x00#8, 0x00#8, []⟩)) := by decide
/-- C-DEC2, C-DEC4 to C-DEC6, C-DEC9, C-DEC10: each error, and the postamble before the checksum. -/
theorem test_decodeFrame_errors :
    decodeFn checksumFn 32 (frame0.take 6) = .err .short ∧
    decodeFn checksumFn 32 (0x11#8 :: frame0) = .err .preamble ∧
    decodeFn checksumFn 32 [0xF0#8, 0xCA#8, 0x00#8, 0x1A#8, 0x00#8, 0x00#8, 0x00#8] = .err .oversize ∧
    decodeFn checksumFn 32 (frame0 ++ [0x00#8]) = .err .length ∧
    decodeFn checksumFn 32 [0xF0#8, 0xCA#8, 0x00#8, 0x00#8, 0x01#8, 0x53#8, 0x0F#8] = .err .checksum ∧
    decodeFn checksumFn 32 [0xF0#8, 0xCA#8, 0x00#8, 0x00#8, 0x01#8, 0x54#8, 0x0F#8] = .err .postamble := by decide
/-- T1, T7. -/
theorem test_sendPacket0 :
    (outState (exec (.sendPacket0 0x05#8) sLen)).map (fun t => (t.txlog, t.result, t.state, t.cursor)) =
      some ([[0xF0#8, 0xCA#8, 0x05#8, 0x00#8, 0x05#8, 0x53#8, 0x0F#8]], some (.sent .ok), 2#3, 3) := by decide
/-- T2. -/
theorem test_sendPacket1 :
    (outState (exec (.sendPacket1 0x01#8 0x05#8) State.reset)).map State.txlog = some [frame1] := by decide
/-- T6. -/
theorem test_sendPacket1_rejected :
    (outState (exec (.sendPacket1 0x01#8 0x05#8) { State.reset with capacity := 7 })).map
      (fun t => (t.txlog, t.result)) = some ([], some (.sent .rejected)) := by decide
/-- T3. -/
theorem test_sendPacket :
    (outState (exec (.sendPacket 0x10#8 0x02#8 [0xF0#8, 0xCA#8]) State.reset)).map State.txBytes =
      some [0xF0#8, 0xCA#8, 0x10#8, 0x02#8, 0xF0#8, 0xCA#8, 0xCC#8, 0x53#8, 0x0F#8] := by decide
/-- T4, T5. -/
theorem test_sendPacket_turned_away :
    (outState (exec (.sendPacket 0x20#8 0x1A#8 (List.replicate 26 0x00#8)) State.reset)).map
      (fun t => (t.txlog, t.result)) = some ([], some (.sent .rejected)) ∧
    outRefusal (exec (.sendPacket 0x10#8 0x03#8 [0xF0#8, 0xCA#8]) State.reset) =
      some (.operand 0x810#12 0x03#8 2) := by decide
/-- E1, E2. -/
theorem test_reserved :
    outRefusal (step (calling { word := 0xD00#12 })) = some (.reservedOp 0xD00#12) ∧
    outRefusal (step (calling { word := 0xE00#12 })) = some (.reservedOp 0xE00#12) ∧
    outRefusal (step (calling { word := 0xF12#12 })) = some (.reservedOp 0xF12#12) := by decide
/-- H5: FAULT is set, and the machine stays. -/
theorem test_mark_fault :
    (tick (calling { word := 0x300#12 })).faultMark = some (.noPacket 0x300#12) ∧
    outFault (step (tick (calling { word := 0x300#12 }))) = some (.noPacket 0x300#12) := by decide
/-- E4: no byte is consumed. -/
theorem test_nonzero_arg_step :
    outRefusal (step (calling { word := 0x001#12 })) = some (.nonzeroArg 0x001#12) := by decide
/-- A table word of each space, placed and stepped: HAS_PACKET, and SPO1_POST1. -/
theorem test_withFetchWord :
    (outState (step (State.reset.withFetchWord 12 0xC00))).bind State.result = some (.bool false) ∧
    (outState (step (State.reset.withFetchWord 11 0x353))).map State.state = some 4#3 := by decide
theorem test_decodeTableWord :
    decodeTableWord 12 0x501 = some (.pktReadData 0x01#8) ∧ decodeTableWord 11 0x5F0 = some .boPre1 ∧
    decodeTableWord 12 0x201 = none ∧ decodeTableWord 16 0x1CA = some .sp2Pre2 := by decide

/-! ### Witnesses: a state and operands that meet the hypotheses of each statement that has them -/

theorem witness_decodeOfEncode :
    (Instr.rcOverflow 0x1A#8).wellFormed = true ∧ (Instr.rcOverflow 0x1A#8).condHolds ⟨true, false, false⟩ = true ∧
    (Instr.sendPacket 0x10#8 0x01#8 [0xFF#8]).wellFormed = true ∧
    (Instr.sendPacket 0x10#8 0x01#8 [0xFF#8]).condHolds noCond = true := by decide
theorem witness_encodeOfDecode : ∃ i, decodeHost { word := 0x8FF#12, len := 0x01#8, list := [0xFF#8] } = .ok i :=
  ⟨_, rfl⟩
theorem witness_fourRefusals_reserved :
    Unmarked (calling { word := 0xDFF#12 }) ∧ (calling { word := 0xDFF#12 }).script = [.call { word := 0xDFF#12 }] ∧
    0xD ≤ (opOf 0xDFF#12).toNat := by decide
theorem witness_fourRefusals_nonzeroArg :
    Unmarked (calling { word := 0xC01#12 }) ∧ (calling { word := 0xC01#12 }).script = [.call { word := 0xC01#12 }] ∧
    opOf 0xC01#12 ∈ [0x0#4, 0x1#4, 0x2#4, 0x3#4, 0x4#4, 0x9#4, 0xB#4, 0xC#4] ∧ argOf 0xC01#12 ≠ 0#8 := by decide
theorem witness_fourRefusals_operand : ([0xF0#8, 0xCA#8] : List Byte).length ≠ (0x03#8 : Byte).toNat := by decide
theorem witness_fourRefusals_readEmpty : State.reset.rxq = [] := by decide
theorem witness_illegalState :
    6 ≤ (frameState 6#3 0 []).state.toNat ∧ 6 ≤ (frameState 7#3 0 []).state.toNat := by decide
theorem witness_stepRuns_call :
    Unmarked (calling { word := 0xC00#12 }) ∧ (calling { word := 0xC00#12 }).script = [.call { word := 0xC00#12 }] ∧
    decodeHost { word := 0xC00#12 } = .ok .hasPacket := ⟨by decide, by decide, rfl⟩
theorem witness_stepRuns_rx :
    Unmarked { State.reset with script := [.rx [0xF0#8]] } ∧
    ({ State.reset with script := [.rx [0xF0#8]] } : State).script = .rx [0xF0#8] :: [] := by decide
theorem witness_stepRuns_idle : Unmarked State.reset ∧ State.reset.script = [] := by decide
theorem witness_receiveStepRuns :
    rxCond 0x1A#8 sLen = .next ⟨true, false, false⟩ ∧ rxCond 0x0F#8 sPost2 = .next ⟨false, false, true⟩ :=
  ⟨rfl, rfl⟩
/-- The invariant holds in a state of every parse state, at the boundaries of the buffer too. -/
theorem witness_inv_every_state :
    Inv State.reset ∧ Inv sPre2 ∧ Inv sType ∧ Inv sLen ∧ Inv sSum ∧ Inv sPost1 ∧ Inv sPost2 ∧ Inv sPost2Bad ∧
    Inv sOver ∧ Inv sPost2Small :=
  ⟨by decide, by decide, by decide, by decide, by decide, by decide, by decide, by decide, by decide, by decide⟩
theorem witness_inv_packet : Inv sPacket ∧ Inv sEmptyPacket := ⟨by decide, by decide⟩
theorem witness_sp1Pre1 : 7 ≤ State.reset.capacity ∧ State.reset.state = 0#3 := by decide
theorem witness_huntingRows : State.reset.state = 0#3 ∧ sOver.state = 5#3 ∧ (0xCA#8 : Byte) ≠ 0xF0#8 := by decide
theorem witness_sp2Pre2 : sPre2.cursor < sPre2.capacity ∧ Inv sPre2 ∧ sPre2.state = 1#3 := by decide
theorem witness_sp2Pre1 : 7 ≤ sPre2.capacity ∧ sPre2.state = 1#3 := by decide
theorem witness_sp2Other : sPre2.state = 1#3 ∧ (0x22#8 : Byte) ≠ 0xCA#8 ∧ (0x22#8 : Byte) ≠ 0xF0#8 := by decide
/-- The longest LENGTH that fits. -/
theorem witness_rcStore :
    sLen.cursor < sLen.capacity ∧ Inv sLen ∧ sLen.state = 2#3 ∧
    ¬ (sLen.cursor = 3 ∧ sLen.capacity < 7 + (0x19#8 : Byte).toNat) ∧
    ¬ (4 ≤ sLen.cursor ∧ sLen.cursor = 4 + sLen.n) := by decide
/-- The shortest LENGTH that does not. -/
theorem witness_rcOverflow :
    sLen.cursor < sLen.capacity ∧ Inv sLen ∧ sLen.state = 2#3 ∧ sLen.cursor = 3 ∧
    sLen.capacity < 7 + (0x1A#8 : Byte).toNat := by decide
theorem witness_rcEnd :
    sSum.cursor < sSum.capacity ∧ Inv sSum ∧ sSum.state = 2#3 ∧ 4 ≤ sSum.cursor ∧ sSum.cursor = 4 + sSum.n := by
  decide
theorem witness_spo1Post1 : sPost1.cursor < sPost1.capacity ∧ Inv sPost1 ∧ sPost1.state = 3#3 := by decide
theorem witness_wrongPostamble :
    (sPost1.state = 3#3 ∧ (0xF0#8 : Byte) ≠ 0x53#8) ∧ (sPost2.state = 4#3 ∧ (0xF0#8 : Byte) ≠ 0x0F#8) := by decide
/-- At the last index of the smallest buffer too. -/
theorem witness_spo2Post2Ok :
    Inv sPost2 ∧ sPost2.state = 4#3 ∧
    sPost2.buf.read (4 + sPost2.n) = checksumFn (sPost2.buf.span 2 (2 + sPost2.n)) ∧
    Inv sPost2Small ∧ sPost2Small.state = 4#3 := ⟨by decide, by decide, by decide, by decide, by decide⟩
theorem witness_spo2Post2Bad :
    sPost2Bad.cursor < sPost2Bad.capacity ∧ Inv sPost2Bad ∧ sPost2Bad.state = 4#3 ∧
    sPost2Bad.buf.read (4 + sPost2Bad.n) ≠ checksumFn (sPost2Bad.buf.span 2 (2 + sPost2Bad.n)) := by decide
theorem witness_boPre1 : 7 ≤ sOver.capacity ∧ sOver.state = 5#3 := by decide
/-- A row that stores, a row that discards, and the row that publishes. -/
theorem witness_receiveRows :
    ((Instr.rcStore 0x01#8).isRxRow = true ∧ (∃ t, exec (.rcStore 0x01#8) sLen = .next t) ∧
      storeIndex (.rcStore 0x01#8) sLen = some 3) ∧
    ((Instr.sp2Other 0x22#8).isRxRow = true ∧ (∃ t, exec (.sp2Other 0x22#8) sPre2 = .next t) ∧
      storeIndex (.sp2Other 0x22#8) sPre2 = none) ∧ ∃ t, exec .spo2Post2Ok sPost2 = .next t :=
  ⟨⟨rfl, ⟨_, rfl⟩, rfl⟩, ⟨rfl, ⟨_, rfl⟩, rfl⟩, _, rfl⟩
theorem witness_storesEndTheView :
    (∃ t, rxStep 0x0F#8 sPost2 = .next t ∧ t.pktValid = true) ∧
    ∃ t, rxStep 0x00#8 sPacket = .next t ∧ t.pktValid = true := ⟨⟨_, rfl, rfl⟩, _, rfl, rfl⟩
theorem witness_processInputDrains : Inv sPacket ∧ sPacket.endless = false := by decide
theorem witness_processInputAnswers :
    ∃ t, exec .processInput { sPre2 with rxq := [0xCA#8], arrivals := [[0x02#8], []] } = .next t := ⟨_, rfl⟩
theorem witness_processInputEmpty : sPost2.rxq = [] := by decide
/-- A transport that never stops, with a byte to read. -/
def sEndless : State := { State.reset with rxq := [0x00#8], endless := true, script := [.call { word := 0x000#12 }] }
theorem witness_endless :
    Inv sEndless ∧ sEndless.endless = true ∧ sEndless.arrivals = [] ∧ sEndless.rxq ≠ [] ∧ Unmarked sEndless := by
  decide
theorem witness_endless_step : step sEndless = .fault .neverReturns := by rfl
theorem witness_splitting :
    sPre2.arrivals = [] ∧ sPre2.endless = false ∧
    ∃ t, exec .processInput { sPre2 with rxq := [0xCA#8] } = .next t := ⟨rfl, rfl, _, rfl⟩
theorem witness_emptyPacket : sEmptyPacket.pktValid = true ∧ sEmptyPacket.pktLen = 0#8 := by decide
theorem witness_getPacket : sPacket.pktValid = true ∧ State.reset.pktValid = false := by decide
/-- The last index of the view, and the first past it. -/
theorem witness_pktReadData :
    State.reset.pktValid = false ∧ (sPacket.pktValid = true ∧ sPacket.pktLen.toNat ≤ (0x01#8 : Byte).toNat) ∧
    (Inv sPacket ∧ sPacket.pktValid = true ∧ (0x00#8 : Byte).toNat < sPacket.pktLen.toNat) := by decide
theorem witness_hasPacket :
    Inv sPacket ∧ exec .hasPacket sPacket = .next { sPacket with result := some (.bool true) } ∧
    (0x00#8 : Byte).toNat < sPacket.pktLen.toNat := ⟨by decide, rfl, by decide⟩
theorem witness_resetTwice : ∃ t, exec .reset sLen = .next t := ⟨_, rfl⟩
theorem witness_queries :
    (∃ t, exec .getPacket sPacket = .next t) ∧ (∃ t, exec (.pktReadData 0x00#8) sPacket = .next t) ∧
    ∃ t, exec (.encodeFrame 0x01#8 [0x05#8]) sPacket = .next t := ⟨⟨_, rfl⟩, ⟨_, rfl⟩, _, rfl⟩
theorem witness_hostOperations :
    (Instr.sendPacket0 0x00#8).isRxRow = false ∧ Instr.sendPacket0 0x00#8 ≠ .processInput ∧
    (∃ t, exec (.sendPacket0 0x00#8) sPacket = .next t) ∧ Instr.sendPacket0 0x00#8 ≠ .reset :=
  ⟨rfl, by decide, ⟨_, rfl⟩, by decide⟩
theorem witness_checksumPerm : ([0x01#8, 0x02#8] : List Byte).Perm [0x02#8, 0x01#8] := by decide
/-- Both bounds of the encoder, and the longest payload of the reference buffer. -/
theorem witness_encode :
    State.reset.capacity - 7 < (List.replicate 26 (0#8 : Byte)).length ∧
    255 < (List.replicate 256 (0#8 : Byte)).length ∧
    ¬ (State.reset.capacity - 7 < (List.replicate 25 (0#8 : Byte)).length ∨
       255 < (List.replicate 25 (0#8 : Byte)).length) := by
  simp only [List.length_replicate]; decide
theorem witness_decodeVerdict :
    (frame0.take 6).length < 7 ∧ (5 ≤ (frame0.drop 2).length ∧ (0xCB#8 : Byte) ≠ 0xCA#8) ∧
    (3 ≤ (frame0.drop 4).length ∧ 32 < 7 + (0x1A#8 : Byte).toNat) ∧
    (3 ≤ (frame0.drop 4).length ∧ 7 + (0x19#8 : Byte).toNat ≤ 32 ∧
      (frame0.drop 4).length ≠ 3 + (0x19#8 : Byte).toNat) ∧
    (([0x05#8] : List Byte).length = (0x01#8 : Byte).toNat ∧ 7 + (0x01#8 : Byte).toNat ≤ 32) := by decide
/-- The smallest CAPACITY, and the longest payload of one byte of LENGTH. -/
theorem witness_roundTrip :
    7 ≤ 7 ∧ ([] : List Byte).length ≤ 7 - 7 ∧ (List.replicate 255 (0#8 : Byte)).length ≤ 262 - 7 ∧
    (List.replicate 255 (0#8 : Byte)).length ≤ 255 ∧
    decodeFn checksumFn 32 frame1 = .ok ⟨0x01#8, 0x01#8, [0x05#8]⟩ := by
  simp only [List.length_replicate]; decide
/-- TYPE, the first and last DATA byte, and CHECKSUM (vectors L-CSR1 to L-CSR3). -/
theorem witness_corruption :
    Inv State.reset ∧ State.reset.state = 0#3 ∧
    decodeFn checksumFn State.reset.capacity frame1 = .ok ⟨0x01#8, 0x01#8, [0x05#8]⟩ ∧
    frame1[2]? ≠ some 0x02#8 ∧ (4 ≤ 4 ∧ frame1[4]? ≠ some 0x06#8) ∧
    (5 ≤ 4 + (0x01#8 : Byte).toNat ∧ frame1[5]? ≠ some 0x08#8) :=
  ⟨by decide, by decide, by decide, by decide, by decide, by decide⟩
theorem witness_wellFormedFrame :
    Inv sOver ∧ Hunting sOver ∧ Hunting State.reset ∧
    decodeFn checksumFn sOver.capacity frame1 = .ok ⟨0x01#8, 0x01#8, [0x05#8]⟩ := by decide
/-- The longest frame that fits. -/
theorem witness_agreesWhenItFits :
    Inv State.reset ∧ State.reset.state = 0#3 ∧
    (List.replicate 28 (0#8 : Byte)).length = 3 + (0x19#8 : Byte).toNat ∧
    7 + (0x19#8 : Byte).toNat ≤ State.reset.capacity := by decide
/-- The rest of an oversized frame that holds a whole frame. -/
theorem witness_agreesAlways :
    Inv State.reset ∧ State.reset.state = 0#3 ∧
    (frame0 ++ List.replicate 22 (0#8 : Byte)).length = 3 + (0x1A#8 : Byte).toNat := by decide
theorem witness_framingNeverLost :
    Inv sType ∧ (List.replicate 30 (0x19#8 : Byte)).length = sType.capacity - 2 := by decide
/-- Garbage that ends in F0, split in the middle of the preamble. -/
theorem witness_resynchronisation :
    Inv sOver ∧ Hunting sOver ∧ sOver.rxq = [] ∧ sOver.arrivals = [] ∧ sOver.endless = false ∧
    noPreamblePair [0x11#8, 0xF0#8] = true ∧
    decodeFn checksumFn sOver.capacity frame0 = .ok ⟨0x00#8, 0x00#8, []⟩ ∧
    [[0x11#8, 0xF0#8, 0xF0#8], frame0.drop 1].flatten = [0x11#8, 0xF0#8] ++ frame0 ∧
    ([0x11#8, 0xF0#8] : List Byte) = [0x11#8] ++ [0xF0#8] ∧ [[0x11#8]].flatten = ([0x11#8] : List Byte) ∧
    [[0xF0#8], frame0].flatten = [0xF0#8] ++ frame0 :=
  ⟨by decide, by decide, by decide, by decide, by decide, by decide, by decide, by decide, by decide, by decide,
    by decide⟩
theorem witness_backToBack :
    Inv State.reset ∧ State.reset.state = 0#3 ∧
    decodeFn checksumFn State.reset.capacity frame0 = .ok ⟨0x00#8, 0x00#8, []⟩ ∧
    decodeFn checksumFn State.reset.capacity frame1 = .ok ⟨0x01#8, 0x01#8, [0x05#8]⟩ := by decide
theorem witness_overflowRecovery :
    Inv State.reset ∧ State.reset.state = 0#3 ∧ State.reset.capacity < 7 + (0x1A#8 : Byte).toNat ∧
    noPreamblePair [0x00#8, 0xF0#8, 0x00#8] = true ∧
    decodeFn checksumFn State.reset.capacity frame0 = .ok ⟨0x00#8, 0x00#8, []⟩ := by decide
/-- The length check, the first LEN that is rejected and the last that is not. -/
theorem witness_sendPacket :
    ([0xF0#8, 0xCA#8] : List Byte).length ≠ (0x03#8 : Byte).toNat ∧
    ((List.replicate 26 (0#8 : Byte)).length = (0x1A#8 : Byte).toNat ∧
      State.reset.capacity - 7 < (0x1A#8 : Byte).toNat) ∧
    ((List.replicate 25 (0#8 : Byte)).length = (0x19#8 : Byte).toNat ∧
      (0x19#8 : Byte).toNat ≤ State.reset.capacity - 7) := by decide
theorem witness_sendPacket1 : sPost2Small.capacity ≤ 7 ∧ 7 < State.reset.capacity := by decide
theorem witness_transmitPath :
    7 ≤ sLen.capacity ∧ (∃ u, exec (.sendPacket1 0x01#8 0x05#8) sLen = .next u) ∧
    ∃ u, exec (.sendPacket 0x10#8 0x01#8 [0xF0#8]) sLen = .next u := ⟨by decide, ⟨_, rfl⟩, _, rfl⟩
theorem witness_powerOn_step : ∃ t, step (calling { word := 0x100#12 }) = .next t := ⟨_, rfl⟩
theorem witness_powerOn_buffer :
    7 ≤ 7 ∧ Memory.wf [(0, 0xF0#8), (6, 0x0F#8)] = true ∧ Memory.below 7 [(0, 0xF0#8), (6, 0x0F#8)] = true := by
  decide
theorem witness_invStep :
    Inv { sPost2 with rxq := [0x0F#8], script := [.call { word := 0x000#12 }] } ∧
    ∃ t, step { sPost2 with rxq := [0x0F#8], script := [.call { word := 0x000#12 }] } = .next t :=
  ⟨by decide, _, rfl⟩
theorem witness_onlyStops : Inv sPacket ∧ Unmarked sPacket := by decide
theorem witness_marks :
    (Unmarked (calling { word := 0x300#12 }) ∧
      step (calling { word := 0x300#12 }) = .fault (.noPacket 0x300#12) ∧
      Fault.noPacket 0x300#12 ≠ .neverReturns) ∧
    (Unmarked (calling { word := 0xD00#12 }) ∧
      step (calling { word := 0xD00#12 }) = .refused (.reservedOp 0xD00#12)) ∧
    ¬ Unmarked { State.reset with faultMark := some (.noPacket 0x300#12) } :=
  ⟨⟨by decide, rfl, by decide⟩, ⟨by decide, rfl⟩, by decide⟩
/-- Two states a caller cannot tell apart: another buffer, another type and length of no Packet, other logs. -/
theorem witness_sameToCaller :
    Inv State.reset ∧
    SameToCaller State.reset
      { State.reset with buf := [(5, 0x07#8)], pktType := 0x33#8, pktLen := 0x44#8, txlog := [[0x01#8]],
                         publog := [⟨0x00#8, 0x00#8, []⟩], trace := [⟨.framing, .sp2Other⟩] } :=
  ⟨by decide, by decide, rfl, by decide, by decide⟩
theorem witness_resetIsLikePowerOn :
    Inv sPacket ∧ Unmarked sPacket ∧ Memory.wf [(5, 0x07#8)] = true ∧ ∃ t, exec .reset sPacket = .next t :=
  ⟨by decide, by decide, by decide, _, rfl⟩

end Sys2Proof.Tests
end

section
/-! PROOF. The host operations other than PROCESS_INPUT leave the receive side as it was (20_memory R38). -/

namespace Sys2Proof.Machine

/-! ### What a host operation can do -/

@[simp] theorem finish_eq_next {r : Result} {s t : State} : finish r s = .next t ↔ t = s.returns r := by
  simp [finish, eq_comm]

theorem execGetPacket_eq_next {s t : State} :
    execGetPacket s = .next t ↔ s.pktValid = true ∧ t = s.returns (.packet s.pktType s.pktLen s.hasData) := by
  simp [execGetPacket, andThen_eq_next, needPacket_eq_next, and_assoc]

theorem execPktHasData_eq_next {s t : State} :
    execPktHasData s = .next t ↔ s.pktValid = true ∧ t = s.returns (.bool s.hasData) := by
  simp [execPktHasData, andThen_eq_next, needPacket_eq_next, and_assoc]

theorem execPktReadData_eq_next {i : Byte} {s t : State} :
    execPktReadData i s = .next t ↔
      s.pktValid = true ∧ i.toNat < s.pktLen.toNat ∧ 4 + i.toNat < s.capacity ∧
        t = s.returns (.byte (s.buf.read (4 + i.toNat))) := by
  simp [execPktReadData, andThen_eq_next, needPacket_eq_next, viewIndex_eq_next, bufRead_eq_next, and_assoc]

/-- A state that differs from `s` in the result of the call, and in at most one event more in TXLOG. -/
def Answers (s t : State) : Prop :=
  (∃ r, t = s.returns r) ∨ ∃ f r, t = (s.txWrite f).returns r

theorem Answers.returns (r : Result) (s : State) : Answers s (s.returns r) := .inl ⟨r, rfl⟩

theorem Answers.eq_withTxlogResult {s t : State} (h : Answers s t) :
    t = { s with txlog := t.txlog, result := t.result } := by
  obtain ⟨r, rfl⟩ | ⟨f, r, rfl⟩ := h <;> rfl

/-- The transmit path answers only with a frame written or rejected (43_transmit R115). -/
theorem sendGeneral_next {w : OpWord} {ty len : Byte} {data : List Byte} {s t : State}
    (h : sendGeneral w ty len data s = .next t) : Answers s t := by
  obtain ⟨d, _, h⟩ := andThen_eq_next.mp h
  obtain ⟨_, rfl⟩ | ⟨f, _, rfl⟩ := sendFrame_next h
  · exact .returns _ s
  · exact .inr ⟨f, _, rfl⟩

/-- What a host operation other than PROCESS_INPUT that answers has done: RESET its own effect (41_host_access R102),
a query or codec operation its result, a send its result and at most one event in TXLOG. -/
theorem exec_host_next {i : Instr} {s t : State} (hrow : i.isRxRow = false) (hpi : i ≠ .processInput)
    (h : exec i s = .next t) :
    (i = .reset ∧ t = State.returns .unit { s with state := Config.sp1, cursor := 0, usedLen := 0, pktValid := false }) ∨
      Answers s t := by
  cases i with
  | processInput => exact absurd rfl hpi
  | reset => exact .inl ⟨rfl, finish_eq_next.mp h⟩
  | getState | checksum | encodeFrame | decodeFrame | hasPacket =>
    exact .inr (.inl ⟨_, finish_eq_next.mp h⟩)
  | getPacket =>
    obtain ⟨_, rfl⟩ := execGetPacket_eq_next.mp h
    exact .inr (.returns _ s)
  | pktHasData =>
    obtain ⟨_, rfl⟩ := execPktHasData_eq_next.mp h
    exact .inr (.returns _ s)
  | pktReadData =>
    obtain ⟨_, _, _, rfl⟩ := execPktReadData_eq_next.mp h
    exact .inr (.returns _ s)
  | sendPacket0 ty => exact .inr (sendGeneral_next (show execSendPacket0 ty s = .next t from h))
  | sendPacket1 ty d => exact .inr (sendGeneral_next (show execSendPacket1 ty d s = .next t from h))
  | sendPacket => exact .inr (sendGeneral_next h)
  | reservedD | reservedE | reservedF => cases h
  | sp1Pre1 | sp1Other | sp2Pre2 | sp2Pre1 | sp2Other | rcStore | rcOverflow | rcEnd | spo1Post1 | spo1Other
  | spo2Post2Ok | spo2Post2Bad | spo2Other | boPre1 | boOther | illegalState => cases hrow

/-- Settles O35: of the host operations but PROCESS_INPUT only RESET writes the block, and the others leave all but
TXLOG and the result. -/
theorem hostOperationsLeaveTheReceiver : Obligations.HostOperationsLeaveTheReceiver := by
  intro i s t hrow hpi h
  obtain ⟨rfl, rfl⟩ | ht := exec_host_next hrow hpi h
  · exact ⟨rfl, fun hne => absurd rfl hne⟩
  · have heq := ht.eq_withTxlogResult
    exact ⟨by rw [heq], fun _ => heq⟩

end Sys2Proof.Machine
end

section
/-! PROOF. The row that RX_STEP selects in each parse state, said once (40_receive R76). -/

namespace Sys2Proof.Machine

/-! ### The row of a key -/

@[simp] theorem rowOfKey_sp1 (b : Byte) (c : RxCond) :
    rowOfKey (rxKey 0#3 b) c = if b = 0xF0#8 then .sp1Pre1 else .sp1Other := by
  simp [rowOfKey, Config.sp1, Config.preamble1]

@[simp] theorem rowOfKey_sp2 (b : Byte) (c : RxCond) :
    rowOfKey (rxKey 1#3 b) c = if b = 0xCA#8 then .sp2Pre2 else if b = 0xF0#8 then .sp2Pre1 else .sp2Other := by
  simp [rowOfKey, Config.sp1, Config.sp2, Config.preamble1, Config.preamble2]

@[simp] theorem rowOfKey_rc (b : Byte) (c : RxCond) :
    rowOfKey (rxKey 2#3 b) c = if c.overflow then .rcOverflow else if c.frameEnd then .rcEnd else .rcStore := by
  simp [rowOfKey, Config.sp1, Config.sp2, Config.rc]

@[simp] theorem rowOfKey_spo1 (b : Byte) (c : RxCond) :
    rowOfKey (rxKey 3#3 b) c = if b = 0x53#8 then .spo1Post1 else .spo1Other := by
  simp [rowOfKey, Config.sp1, Config.sp2, Config.rc, Config.spo1, Config.postamble1]

@[simp] theorem rowOfKey_spo2 (b : Byte) (c : RxCond) :
    rowOfKey (rxKey 4#3 b) c =
      if b = 0x0F#8 then if c.checksumOk then .spo2Post2Ok else .spo2Post2Bad else .spo2Other := by
  simp [rowOfKey, Config.sp1, Config.sp2, Config.rc, Config.spo1, Config.spo2, Config.postamble2]

@[simp] theorem rowOfKey_bo (b : Byte) (c : RxCond) :
    rowOfKey (rxKey 5#3 b) c = if b = 0xF0#8 then .boPre1 else .boOther := by
  simp [rowOfKey, Config.sp1, Config.sp2, Config.rc, Config.spo1, Config.spo2, Config.bo, Config.preamble1]

/-- The codes 6 and 7 are none of the six legal ones. -/
theorem rowOfKey_illegal {st : StateCode} (h : 6 ≤ st.toNat) (b : Byte) (c : RxCond) :
    rowOfKey (rxKey st b) c = .illegalState := by
  have hne : ∀ code : StateCode, code.toNat ≤ 5 → st ≠ code := by
    rintro code hcode rfl
    omega
  simp [rowOfKey, hne, Config.sp1, Config.sp2, Config.rc, Config.spo1, Config.spo2, Config.bo]

/-! ### The receive step in each parse state -/

section
variable {s : State}

theorem rxStep_sp1 (b : Byte) (h : s.state = 0#3) :
    rxStep b s = if b = 0xF0#8 then exec .sp1Pre1 s else exec (.sp1Other b) s := by
  rw [rxStep_plain (by simp [h, Config.rc]) (by simp [h, Config.spo2]), h, rowOfKey_sp1]
  split <;> rfl

theorem rxStep_sp2 (b : Byte) (h : s.state = 1#3) :
    rxStep b s =
      if b = 0xCA#8 then exec .sp2Pre2 s else if b = 0xF0#8 then exec .sp2Pre1 s else exec (.sp2Other b) s := by
  rw [rxStep_plain (by simp [h, Config.rc]) (by simp [h, Config.spo2]), h, rowOfKey_sp2]
  split_ifs <;> rfl

/-- In ReceiveCommand the conditions are those of the buffer after the store (40_receive R83 to R85). -/
theorem rxStep_rc (b : Byte) (h : s.state = 2#3) (hcur : s.cursor < s.capacity) (hcap : 3 < s.capacity) :
    rxStep b s =
      if s.cursor + 1 = 4 ∧ s.capacity < 7 + (s.stored b).n then exec (.rcOverflow b) s
      else if 5 ≤ s.cursor + 1 ∧ s.cursor + 1 = 5 + (s.stored b).n then exec (.rcEnd b) s
      else exec (.rcStore b) s := by
  have hcond : rxCond b s =
      .next ⟨decide (s.cursor + 1 = 4 ∧ s.capacity < 7 + (s.stored b).n),
        decide (5 ≤ s.cursor + 1 ∧ s.cursor + 1 = 5 + (s.stored b).n), false⟩ := by
    rw [rxCond, if_pos (show s.state = Config.rc from h), store_of_lt b hcur, andThen_next]
    exact commandCond_eq hcap
  rw [rxStep, hcond, andThen_next, h, rowOfKey_rc]
  simp only [decide_eq_true_eq]
  split_ifs <;> rfl

theorem rxStep_spo1 (b : Byte) (h : s.state = 3#3) :
    rxStep b s = if b = 0x53#8 then exec .spo1Post1 s else exec (.spo1Other b) s := by
  rw [rxStep_plain (by simp [h, Config.rc]) (by simp [h, Config.spo2]), h, rowOfKey_spo1]
  split <;> rfl

theorem rxStep_spo2_other {b : Byte} (h : s.state = 4#3) (hb : b ≠ 0x0F#8) :
    rxStep b s = exec (.spo2Other b) s := by
  rw [rxStep_plain (by simp [h, Config.rc]) (by simp [hb, Config.postamble2]), h, rowOfKey_spo2, if_neg hb]
  rfl

theorem rxStep_bo (b : Byte) (h : s.state = 5#3) :
    rxStep b s = if b = 0xF0#8 then exec .boPre1 s else exec (.boOther b) s := by
  rw [rxStep_plain (by simp [h, Config.rc]) (by simp [h, Config.spo2]), h, rowOfKey_bo]
  split <;> rfl

/-- The illegal codes are those whose two high bits are set. -/
theorem illegalCode_fields : ∀ st : StateCode, 6 ≤ st.toNat → 0x3#2 ++ st.extractLsb' 0 1 = st := by decide

theorem rxStep_illegal (b : Byte) (h : 6 ≤ s.state.toNat) : rxStep b s = .fault (.illegalState s.state b) := by
  have hrc : s.state ≠ Config.rc := fun he => by simp [he, Config.rc] at h
  have hspo2 : s.state ≠ Config.spo2 := fun he => by simp [he, Config.spo2] at h
  rw [rxStep_plain hrc (fun hc => hspo2 hc.1), rowOfKey_illegal h, runRow, execIllegalState,
    illegalCode_fields _ h]

/-! ### The buffer after a store -/

theorem stored_read_of_ne (b : Byte) {i : Nat} (h : i ≠ s.cursor) : (s.stored b).buf.read i = s.buf.read i :=
  Memory.read_write_ne s.buf b h

theorem stored_n_of_ne (b : Byte) (h : s.cursor ≠ 3) : (s.stored b).n = s.n :=
  congrArg BitVec.toNat (stored_read_of_ne b h.symm)

/-- The byte stored at index 3 is LENGTH. -/
theorem stored_n_of_eq (b : Byte) (hwf : s.buf.wf = true) (h : s.cursor = 3) : (s.stored b).n = b.toNat :=
  congrArg BitVec.toNat (h ▸ Memory.read_write_eq hwf s.cursor b)

theorem stored_span_of_le (b : Byte) {lo k : Nat} (h : lo + k ≤ s.cursor) :
    (s.stored b).buf.span lo k = s.buf.span lo k :=
  Memory.span_write_of_not_mem s.buf b (.inr h)

/-- In SearchPostamble2 the byte 0F lies past everything the checksum is computed from. -/
theorem rxStep_spo2_post2 (h : s.state = 4#3) (hcur : s.cursor = 6 + s.n) (hfit : 7 + s.n ≤ s.capacity) :
    rxStep 0x0F#8 s =
      if s.buf.read (4 + s.n) = checksumFn (s.buf.span 2 (2 + s.n)) then exec .spo2Post2Ok s
      else exec .spo2Post2Bad s := by
  have hn : (s.stored 0x0F#8).n = s.n := stored_n_of_ne _ (by omega)
  have hcond : rxCond 0x0F#8 s =
      .next { noCond with checksumOk := decide (s.buf.read (4 + s.n) = checksumFn (s.buf.span 2 (2 + s.n))) } := by
    rw [rxCond, if_neg (by simp [h, Config.rc]), if_pos ⟨h, rfl⟩, store_of_lt _ (by omega), andThen_next,
      checksumMatches_eq (by rw [State.stored_capacity]; omega) (by rw [hn, State.stored_capacity]; omega), hn,
      stored_read_of_ne _ (by omega), stored_span_of_le _ (by omega), andThen_next]
  rw [rxStep, hcond, andThen_next, h, rowOfKey_spo2, if_pos rfl]
  simp only [decide_eq_true_eq]
  split <;> rfl

/-! ### What the invariant says in each parse state (10_state R33) -/

theorem Inv.seven_le_capacity (h : Inv s) : 7 ≤ s.capacity := by
  obtain ⟨⟨hcap, _⟩, _⟩ := h
  exact hcap

theorem Inv.buf_wf (h : Inv s) : s.buf.wf = true := by
  obtain ⟨⟨_, hwf, _⟩, _⟩ := h
  exact hwf

theorem Inv.cursor_of_sp2 (h : Inv s) (hst : s.state = 1#3) : s.cursor = 1 := by
  obtain ⟨_, _, inv2, _⟩ := h
  exact (inv2 hst).1

/-- In ReceiveCommand three bytes still fit, and past LENGTH the declared frame fits. -/
theorem Inv.rc_fits (h : Inv s) (hst : s.state = 2#3) :
    s.cursor + 3 ≤ s.capacity ∧ (4 ≤ s.cursor → 7 + s.n ≤ s.capacity) := by
  obtain ⟨⟨hcap, _⟩, _, _, inv3, _⟩ := h
  obtain ⟨_, _, hcur⟩ := inv3 hst
  omega

theorem Inv.spo1_fits (h : Inv s) (hst : s.state = 3#3) : s.cursor = 5 + s.n ∧ 7 + s.n ≤ s.capacity := by
  obtain ⟨_, _, _, _, ⟨inv4, _⟩, _⟩ := h
  obtain ⟨hcur, hfit, _⟩ := inv4 hst
  exact ⟨hcur, hfit⟩

theorem Inv.spo2_fits (h : Inv s) (hst : s.state = 4#3) : s.cursor = 6 + s.n ∧ 7 + s.n ≤ s.capacity := by
  obtain ⟨_, _, _, _, ⟨_, inv4⟩, _⟩ := h
  obtain ⟨hcur, _, hfit, _⟩ := inv4 hst
  exact ⟨hcur, hfit⟩

/-- A Packet is valid in SearchPreamble1 only. -/
theorem Inv.pktValid_eq_false (h : Inv s) (hst : s.state ≠ 0#3) : s.pktValid = false := by
  obtain ⟨_, _, _, _, _, inv5, _⟩ := h
  exact Bool.eq_false_iff.mpr fun hv => hst (inv5 hv).1

theorem Inv.state_cases (h : Inv s) :
    s.state = 0#3 ∨ s.state = 1#3 ∨ s.state = 2#3 ∨ s.state = 3#3 ∨ s.state = 4#3 ∨ s.state = 5#3 := by
  obtain ⟨_, _, _, _, _, _, inv7⟩ := h
  simp only [← BitVec.toNat_inj, BitVec.toNat_ofNat]
  omega

end

/-! ### Host words -/

theorem needZeroArg_isRxRow {w : OpWord} {i j : Instr} (hi : i.isRxRow = false) (h : needZeroArg w i = .ok j) :
    j.isRxRow = false := by
  obtain ⟨_, rfl⟩ := needZeroArg_eq_ok.mp h
  exact hi

/-- No host word decodes to a receive row (30_encoding R70). -/
theorem decodeHost_isRxRow {c : HostCall} {i : Instr} (h : decodeHost c = .ok i) : i.isRxRow = false := by
  unfold decodeHost at h
  split at h
  case h_6 | h_7 | h_8 | h_9 | h_11 | h_14 | h_15 | h_16 =>
    cases h
    rfl
  all_goals exact needZeroArg_isRxRow rfl h

/-- Settles O9: in each of the six legal parse states the selected row is the table's, and INV7 leaves no other. -/
theorem rxStepIsTheCaseTable : Obligations.RxStepIsTheCaseTable := by
  refine ⟨fun b s hinv => ?_, fun b s h => rxStep_illegal b h, fun c i h => decodeHost_isRxRow h⟩
  obtain h | h | h | h | h | h := hinv.state_cases
  · simp [h, rxStep_sp1 b h]
  · simp [h, rxStep_sp2 b h]
  · have hcap := hinv.seven_le_capacity
    obtain ⟨hfits, _⟩ := hinv.rc_fits h
    simp [h, rxStep_rc b h (by omega) (by omega)]
  · simp [h, rxStep_spo1 b h]
  · obtain ⟨hcur, hfit⟩ := hinv.spo2_fits h
    by_cases hb : b = 0x0F#8
    · simp [h, hb, rxStep_spo2_post2 h hcur hfit]
    · simp [h, hb, rxStep_spo2_other h hb]
  · simp [h, rxStep_bo b h]

end Sys2Proof.Machine
end

section
/-! PROOF. What each receive row writes and when RX_STEP selects it (40_receive R78 to R93). -/

namespace Sys2Proof.Machine

/-! ### The rows that store and then move on -/

section
variable {s : State}

/-- A `Store(b)` inside the buffer answers, and the row goes on from the stored state. -/
theorem andThen_store {α : Type} (b : Byte) (f : State → Host.Outcome α Fault Refusal) (h : s.cursor < s.capacity) :
    andThen (store b s) f = f (s.stored b) := by
  rw [store_of_lt b h, andThen_next]

/-- Publish reads the frame in the buffer, which lies inside it (40_receive R93). -/
theorem publishFrame_of_le (h3 : 3 < s.capacity) (h : 4 + s.n ≤ s.capacity) :
    publishFrame s = .next (s.publish (s.buf.read 2) (s.buf.read 3) (s.buf.span 4 s.n)) := by
  rw [publishFrame, show Config.typeOffset = 2 from rfl, show Config.dataLengthOffset = 3 from rfl,
    show Config.dataStartOffset = 4 from rfl, bufRead_of_lt (by omega), andThen_next, bufRead_of_lt h3,
    andThen_next, bufSpan_of_le h, andThen_next]

/-- The 0F of SPO2_POST2_OK lies past the TYPE, LENGTH and DATA it publishes. -/
theorem exec_spo2Post2Ok (hcur : s.cursor = 6 + s.n) (hfit : 7 + s.n ≤ s.capacity) :
    exec .spo2Post2Ok s =
      .next (((s.stored 0x0F#8).publish (s.buf.read 2) (s.buf.read 3) (s.buf.span 4 s.n)).setState 0#3) := by
  have hn : (s.stored 0x0F#8).n = s.n := stored_n_of_ne _ (by omega)
  have hpub : publishFrame (s.stored 0x0F#8) =
      .next ((s.stored 0x0F#8).publish (s.buf.read 2) (s.buf.read 3) (s.buf.span 4 s.n)) := by
    rw [publishFrame_of_le (by rw [State.stored_capacity]; omega) (by rw [hn, State.stored_capacity]; omega), hn,
      stored_read_of_ne _ (by omega), stored_read_of_ne _ (by omega), stored_span_of_le _ (by omega)]
  calc exec .spo2Post2Ok s
      = andThen (publishFrame (s.stored 0x0F#8)) fun u => .next (u.setState 0#3) :=
        andThen_store _ _ (by omega)
    _ = _ := by rw [hpub, andThen_next]

end

/-! ### SearchPreamble1 and BufferOverflow -/

/-- Settles O10: SP1_PRE1 is `startFrame`, which stores at index 0 of any buffer. -/
theorem sp1Pre1StartsAFrame : Obligations.Sp1Pre1StartsAFrame := by
  intro s
  refine ⟨fun hcap => startFrame_of_pos (by omega), fun h => ?_⟩
  rw [rxStep_sp1 _ h, if_pos rfl]

/-- Settles O11: neither row has an effect, and F0 is the only byte its state treats otherwise. -/
theorem huntingRowsDiscard : Obligations.HuntingRowsDiscard := by
  intro b s
  refine ⟨rfl, rfl, fun h hb => ?_, fun h hb => ?_⟩
  · rw [rxStep_sp1 b h, if_neg hb]
  · rw [rxStep_bo b h, if_neg hb]

/-- Settles O22: BO_PRE1 and SP1_PRE1 are one `startFrame`. -/
theorem boPre1StartsAFrame : Obligations.BoPre1StartsAFrame := by
  intro s
  refine ⟨rfl, (sp1Pre1StartsAFrame s).1, fun h => ?_⟩
  rw [rxStep_bo _ h, if_pos rfl]

/-! ### SearchPreamble2 -/

/-- Settles O12: by INV2 the byte goes to index 1, and by INV5 no Packet was valid. -/
theorem sp2Pre2CompletesThePreamble : Obligations.Sp2Pre2CompletesThePreamble := by
  intro s
  have hsel (h : s.state = 1#3) : rxStep 0xCA#8 s = exec .sp2Pre2 s := by
    rw [rxStep_sp2 _ h, if_pos rfl]
  refine ⟨fun hcur => andThen_store _ _ hcur, hsel, fun hinv h => ?_⟩
  have hcap := hinv.seven_le_capacity
  have hcur := hinv.cursor_of_sp2 h
  have hvalid := hinv.pktValid_eq_false (by simp [h])
  calc rxStep 0xCA#8 s
      = exec .sp2Pre2 s := hsel h
    _ = .next ((s.stored 0xCA#8).setState 2#3) := andThen_store _ _ (by omega)
    _ = _ := by rw [State.stored, hcur, hvalid]; rfl

/-- Settles O13: the effect of SP1_PRE1, traced. -/
theorem sp2Pre1RestartsThePreamble : Obligations.Sp2Pre1RestartsThePreamble := by
  intro s
  refine ⟨fun hcap => ?_, fun h => ?_⟩
  · rw [exec, execSp2Pre1, startFrame_of_pos (by omega), andThen_next]
    rfl
  · rw [rxStep_sp2 _ h, if_neg (by decide), if_pos rfl]

/-- Settles O14: CA and F0 are the two bytes SearchPreamble2 treats otherwise. -/
theorem sp2OtherBreaksThePreamble : Obligations.Sp2OtherBreaksThePreamble := by
  intro b s
  refine ⟨rfl, fun h hb₂ hb₁ => ?_⟩
  rw [rxStep_sp2 b h, if_neg hb₂, if_neg hb₁]

/-! ### ReceiveCommand -/

/-- In ReceiveCommand, with the conditions of R84 and R85 read off the state before the store: at index 3 the byte
itself is LENGTH, and past it LENGTH is in the buffer and has been found to fit. -/
theorem rxStep_rc_of_inv {s : State} (b : Byte) (hinv : Inv s) (h : s.state = 2#3) :
    rxStep b s =
      if s.cursor = 3 ∧ s.capacity < 7 + b.toNat then exec (.rcOverflow b) s
      else if 4 ≤ s.cursor ∧ s.cursor = 4 + s.n then exec (.rcEnd b) s
      else exec (.rcStore b) s := by
  have hcap := hinv.seven_le_capacity
  obtain ⟨hfits, _⟩ := hinv.rc_fits h
  have hover : (s.cursor + 1 = 4 ∧ s.capacity < 7 + (s.stored b).n) ↔
      (s.cursor = 3 ∧ s.capacity < 7 + b.toNat) := by
    by_cases h3 : s.cursor = 3
    · rw [stored_n_of_eq b hinv.buf_wf h3]
      omega
    · omega
  have hend : (5 ≤ s.cursor + 1 ∧ s.cursor + 1 = 5 + (s.stored b).n) ↔ (4 ≤ s.cursor ∧ s.cursor = 4 + s.n) := by
    by_cases h3 : s.cursor = 3
    · omega
    · rw [stored_n_of_ne b h3]
      omega
  rw [rxStep_rc b h (by omega) (by omega)]
  simp only [hover, hend]

/-- Settles O15: the row is the last of the three tests of ReceiveCommand. -/
theorem rcStoreStoresAndStays : Obligations.RcStoreStoresAndStays := by
  intro b s
  refine ⟨fun hcur => store_of_lt b hcur, fun hinv h => ⟨(hinv.rc_fits h).1, fun hover hend => ?_⟩⟩
  rw [rxStep_rc_of_inv b hinv h, if_neg hover, if_neg hend]

/-- Settles O16: at index 3 the byte is LENGTH, and the overflow test comes first (60_exceptions R130). -/
theorem rcOverflowOnOversizedLength : Obligations.RcOverflowOnOversizedLength := by
  intro b s
  refine ⟨fun hcur => andThen_store _ _ hcur, fun hinv h h3 hbig => ?_⟩
  rw [rxStep_rc_of_inv b hinv h, if_pos ⟨h3, hbig⟩]

/-- Settles O17: past LENGTH the overflow test is over, and by INV3 the declared frame fits. -/
theorem rcEndAfterTheChecksum : Obligations.RcEndAfterTheChecksum := by
  intro b s
  refine ⟨fun hcur => andThen_store _ _ hcur, fun hinv h h4 hend => ⟨?_, ?_⟩⟩
  · rw [rxStep_rc_of_inv b hinv h, if_neg (by omega), if_pos ⟨h4, hend⟩]
  · have hfit := (hinv.rc_fits h).2 h4
    omega

/-! ### SearchPostamble1 and SearchPostamble2 -/

/-- Settles O18: by INV4 the byte goes to index 5 + N, and by INV5 no Packet was valid. -/
theorem spo1Post1StoresThePostamble : Obligations.Spo1Post1StoresThePostamble := by
  intro s
  have hsel (h : s.state = 3#3) : rxStep 0x53#8 s = exec .spo1Post1 s := by
    rw [rxStep_spo1 _ h, if_pos rfl]
  refine ⟨fun hcur => andThen_store _ _ hcur, hsel, fun hinv h => ?_⟩
  obtain ⟨hcur, hfit⟩ := hinv.spo1_fits h
  have hvalid := hinv.pktValid_eq_false (by simp [h])
  have hnext : 5 + s.n + 1 = 6 + s.n := by omega
  calc rxStep 0x53#8 s
      = exec .spo1Post1 s := hsel h
    _ = .next ((s.stored 0x53#8).setState 4#3) := andThen_store _ _ (by omega)
    _ = _ := by rw [State.stored, hcur, hnext, hvalid]; rfl

/-- Settles O19: one postamble byte goes on in each state, and no condition is looked at for any other. -/
theorem wrongPostambleDropsTheFrame : Obligations.WrongPostambleDropsTheFrame := by
  intro b s
  refine ⟨rfl, rfl, fun h hb => ?_, fun h hb => rxStep_spo2_other h hb⟩
  rw [rxStep_spo1 b h, if_neg hb]

/-- Settles O20: by INV4 the byte goes to index 6 + N, past the frame that is checked and published. -/
theorem spo2Post2OkPublishes : Obligations.Spo2Post2OkPublishes := by
  intro s hinv h
  obtain ⟨hcur, hfit⟩ := hinv.spo2_fits h
  refine ⟨?_, fun hsum => ?_⟩
  · have hnext : 6 + s.n + 1 = 7 + s.n := by omega
    rw [exec_spo2Post2Ok hcur hfit, State.stored, hcur, hnext]
    rfl
  · rw [rxStep_spo2_post2 h hcur hfit, if_pos hsum]

/-- Settles O21: by INV4 CURSOR is 6 + N, the last index of a frame that fits. -/
theorem spo2Post2BadDropsSilently : Obligations.Spo2Post2BadDropsSilently := by
  intro s
  refine ⟨fun hcur => andThen_store _ _ hcur, fun hinv h hsum => ?_⟩
  obtain ⟨hcur, hfit⟩ := hinv.spo2_fits h
  refine ⟨?_, hcur, by omega⟩
  rw [rxStep_spo2_post2 h hcur hfit, if_neg hsum]

end Sys2Proof.Machine
end

section
/-! PROOF. What the host's accessors and RESET answer, and when they fault (41_host_access R98 to R102). -/

namespace Sys2Proof.Machine

section
variable {s : State}

/-! ### The preconditions of the packet operations -/

/-- With PKT_VALID = 0 a packet operation faults before anything else (60_exceptions R131). -/
theorem andThen_needPacket_of_invalid {α : Type} (w : OpWord) (f : State → Host.Outcome α Fault Refusal)
    (h : s.pktValid = false) : andThen (needPacket w s) f = .fault (.noPacket w) := by
  simp [needPacket, h]

theorem viewIndex_of_ge {i : Byte} (h : s.pktLen.toNat ≤ i.toNat) :
    viewIndex i s = .fault (.viewIndex i s.pktLen) :=
  if_pos h

/-- With PKT_VALID = 1 an index at or past PKT_LEN faults before the buffer is read. -/
theorem execPktReadData_of_ge {i : Byte} (hv : s.pktValid = true) (h : s.pktLen.toNat ≤ i.toNat) :
    execPktReadData i s = .fault (.viewIndex i s.pktLen) := by
  rw [execPktReadData, needPacket_eq_next.mpr ⟨hv, rfl⟩, andThen_next, viewIndex_of_ge h, andThen_fault]

/-! ### What the invariant says of a valid Packet (10_state R33 INV1, INV5) -/

/-- The view of a valid Packet ends three bytes before the end of the buffer at the latest. -/
theorem Inv.view_fits (hinv : Inv s) (hv : s.pktValid = true) : 7 + s.pktLen.toNat ≤ s.capacity := by
  obtain ⟨_, ⟨hused, hle⟩, _, _, _, inv5, _⟩ := hinv
  obtain ⟨_, hcur, _⟩ := inv5 hv
  omega

theorem Inv.getLast?_publog (hinv : Inv s) (hv : s.pktValid = true) : s.publog.getLast? = some s.currentPacket := by
  obtain ⟨_, _, _, _, _, inv5, _⟩ := hinv
  obtain ⟨_, _, _, _, _, hlast⟩ := inv5 hv
  exact hlast

end

theorem Memory.getElem?_span (m : Memory) {lo n k : Nat} (h : k < n) : (m.span lo n)[k]? = some (m.read (lo + k)) := by
  have hk : k < (m.span lo n).length := by rwa [Memory.length_span]
  rw [List.getElem?_eq_getElem hk, ← List.getD_eq_getElem _ Config.bufPowerOn hk, Memory.getD_span m h]

/-- An operation word with OP = 5 is PKT_READ_DATA of its ARG (30_encoding R70). -/
theorem decodeHost_pktReadData (i : Byte) : decodeHost { word := opWord 0x5#4 i } = .ok (.pktReadData i) := by
  simp [decodeHost]

/-! ### The accessors -/

/-- Settles O28: GET_STATE is its result alone. -/
theorem getStateReturnsTheCode : Obligations.GetStateReturnsTheCode :=
  fun _ => ⟨rfl, rfl⟩

/-- Settles O29: the precondition `PKT_VALID = 1` decides between the answer and F_NO_PACKET. -/
theorem getPacketReturnsOrFaults : Obligations.GetPacketReturnsOrFaults :=
  fun _ => ⟨rfl, fun hv => execGetPacket_eq_next.mpr ⟨hv, rfl⟩, andThen_needPacket_of_invalid _ _⟩

/-- Settles O30: the precondition decides as for GET_PACKET, and every index is at or past a PKT_LEN of 0. -/
theorem pktHasDataReturnsOrFaults : Obligations.PktHasDataReturnsOrFaults := by
  intro s
  refine ⟨rfl, fun hv => execPktHasData_eq_next.mpr ⟨hv, rfl⟩, andThen_needPacket_of_invalid _ _, fun hv h0 i => ?_⟩
  have hge : s.pktLen.toNat ≤ i.toNat := by simp [h0]
  exact h0 ▸ execPktReadData_of_ge hv hge

/-- Settles O31: by INV5 a valid Packet's frame lies inside the buffer, and the last PUBLOG entry's data is its view. -/
theorem pktReadDataReadsTheView : Obligations.PktReadDataReadsTheView := by
  intro i s
  refine ⟨decodeHost_pktReadData i, andThen_needPacket_of_invalid _ _, execPktReadData_of_ge, fun hinv hv hi => ?_⟩
  have hfit := hinv.view_fits hv
  refine ⟨execPktReadData_eq_next.mpr ⟨hv, hi, by omega, rfl⟩, by omega, s.currentPacket, hinv.getLast?_publog hv, ?_⟩
  exact s.buf.getElem?_span hi

/-! ### RESET -/

/-- Settles O33: RESET writes constants only, so a second one writes what it finds. -/
theorem resetReturnsToHunting : Obligations.ResetReturnsToHunting := by
  refine fun s => ⟨rfl, rfl, fun t ht => ?_⟩
  obtain rfl := finish_eq_next.mp ht
  rfl

end Sys2Proof.Machine
end

section
/-! PROOF. The verdicts of DECODE_FN by the shape of the list, and what ENCODE and DECODE answer (42_codec R107 to
R110). -/

namespace Sys2Proof.Machine

/-! ### Elements of a list in two parts -/

@[simp] theorem byteAt_cons_zero (b : Byte) (bs : List Byte) : byteAt (b :: bs) 0 = b := rfl

@[simp] theorem byteAt_cons_succ (b : Byte) (bs : List Byte) (i : Nat) : byteAt (b :: bs) (i + 1) = byteAt bs i := rfl

@[simp] theorem byteAt_length_append (d e : List Byte) : byteAt (d ++ e) d.length = byteAt e 0 := by
  rw [byteAt, List.getD_append_right _ _ _ _ le_rfl, Nat.sub_self, byteAt]

@[simp] theorem byteAt_length_add_append (d e : List Byte) (i : Nat) :
    byteAt (d ++ e) (d.length + i) = byteAt e i := by
  rw [byteAt, List.getD_append_right _ _ _ _ (Nat.le_add_right _ _), Nat.add_sub_cancel_left, byteAt]

/-- The oversize test in exact arithmetic (42_codec R114). -/
@[simp] theorem oversized_eq_true_iff {cap n : Nat} : oversized cap n = true ↔ cap < 7 + n := decide_eq_true_iff

/-! ### The tests of DECODE_FN in their order (42_codec R109) -/

section
variable {ck : List Byte → Byte} {cap : Nat}

theorem decodeFn_of_short {bs : List Byte} (h : bs.length < 7) : decodeFn ck cap bs = .err .short :=
  if_pos h

theorem decodeFn_of_preamble_ne {x y : Byte} {rest : List Byte} (hlen : 5 ≤ rest.length)
    (h : x ≠ 0xF0#8 ∨ y ≠ 0xCA#8) : decodeFn ck cap (x :: y :: rest) = .err .preamble := by
  have hlong : ¬ (x :: y :: rest).length < 7 := by
    simp only [List.length_cons]
    omega
  exact (if_neg hlong).trans (if_pos h)

/-- Past the preamble, TYPE and LENGTH the remaining tests are on the rest of the list alone. -/
theorem decodeFn_preambled (t l : Byte) {rest : List Byte} (hlen : 3 ≤ rest.length) :
    decodeFn ck cap (0xF0#8 :: 0xCA#8 :: t :: l :: rest) =
      if cap < 7 + l.toNat then .err .oversize
      else if rest.length ≠ 3 + l.toNat then .err .length
      else if byteAt rest (l.toNat + 1) ≠ 0x53#8 ∨ byteAt rest (l.toNat + 2) ≠ 0x0F#8 then .err .postamble
      else if byteAt rest l.toNat ≠ ck (t :: l :: rest.take l.toNat) then .err .checksum
      else .ok ⟨t, l, rest.take l.toNat⟩ := by
  have hlong : ¬ rest.length + 4 < 7 := by omega
  have hwhole : rest.length + 4 ≠ 7 + l.toNat ↔ rest.length ≠ 3 + l.toNat := by omega
  simp [decodeFn, hlong, hwhole, slice, Nat.add_comm 2, Nat.add_comm 4, Nat.add_comm 5,
    Nat.add_comm 6, Config.preamble1, Config.preamble2, Config.postamble1, Config.postamble2]

/-- A list of its declared length that fits is judged by its postamble, then by its checksum. -/
theorem decodeFn_of_declaredLength (t c p q : Byte) {l : Byte} {d : List Byte} (hd : d.length = l.toNat)
    (hfit : 7 + l.toNat ≤ cap) :
    decodeFn ck cap (0xF0#8 :: 0xCA#8 :: t :: l :: (d ++ [c, p, q])) =
      if p ≠ 0x53#8 ∨ q ≠ 0x0F#8 then .err .postamble
      else if c ≠ ck (t :: l :: d) then .err .checksum
      else .ok ⟨t, l, d⟩ := by
  have hlen : (d ++ [c, p, q]).length = 3 + d.length := by simp [Nat.add_comm]
  rw [decodeFn_preambled t l (by omega), ← hd, if_neg (by omega), if_neg (by omega)]
  simp

/-! ### The frame of ENCODE_FN (42_codec R107) -/

@[simp] theorem length_frameOf (t l : Byte) (d : List Byte) : (frameOf ck t l d).length = 7 + d.length := by
  simp only [frameOf, List.length_append, List.length_cons, List.length_nil]
  omega

theorem encodeFn_of_tooLong {d : List Byte} (t : Byte) (h : cap - 7 < d.length ∨ 255 < d.length) :
    encodeFn ck cap t d = .rejected :=
  if_pos h

theorem encodeFn_of_fits {d : List Byte} (t : Byte) (h : ¬ (cap - 7 < d.length ∨ 255 < d.length)) :
    encodeFn ck cap t d = .ok (frameOf ck t (BitVec.ofNat 8 d.length) d) :=
  if_neg h

end

/-- Settles O39: each verdict is the first test of DECODE_FN that fails. -/
theorem decodeVerdictByShape : Obligations.DecodeVerdictByShape := by
  refine fun ck cap => ⟨fun _ => decodeFn_of_short, fun _ _ _ => decodeFn_of_preamble_ne,
    fun t l rest hlen hbig => ?_, fun t l rest hlen hfit hne => ?_,
    fun t l c p q d hd hfit => decodeFn_of_declaredLength t c p q hd hfit⟩
  · rw [decodeFn_preambled t l hlen, if_pos hbig]
  · rw [decodeFn_preambled t l hlen, if_neg (by omega), if_pos hne]

/-! ### ENCODE and DECODE -/

/-- An operation word with OP = A is ENCODE of its ARG (30_encoding R70). -/
theorem decodeHost_encodeFrame (t : Byte) (d : List Byte) :
    decodeHost { word := opWord 0xA#4 t, list := d } = .ok (.encodeFrame t d) := by
  simp [decodeHost]

theorem exec_encodeFrame (t : Byte) (d : List Byte) (s : State) :
    exec (.encodeFrame t d) s = .next { s with result := some (.encoded (encodeFn checksumFn s.capacity t d)) } := rfl

/-- The operation word with OP = B and ARG = 0 is DECODE (30_encoding R70). -/
theorem decodeHost_decodeFrame (bs : List Byte) :
    decodeHost { word := opWord 0xB#4 0#8, list := bs } = .ok (.decodeFrame bs) := by
  simp [decodeHost, needZeroArg]

/-- Settles O37: the two tests of ENCODE_FN decide between REJECTED and the frame. -/
theorem encodeBuildsTheFrame : Obligations.EncodeBuildsTheFrame := by
  refine fun t d s => ⟨decodeHost_encodeFrame t d, fun hlong => ?_, fun hfit => ?_⟩
  · rw [exec_encodeFrame, encodeFn_of_tooLong t hlong]
  · refine ⟨frameOf checksumFn t (BitVec.ofNat 8 d.length) d, rfl, length_frameOf t _ d, ?_⟩
    rw [exec_encodeFrame, encodeFn_of_fits t hfit]

/-- Settles O38: DECODE is its result alone, and its ARG is 0. -/
theorem decodeOperation : Obligations.DecodeOperation :=
  fun bs _ => ⟨decodeHost_decodeFrame bs, rfl⟩

end Sys2Proof.Machine
end

section
/-! PROOF. The transmit path writes whole frames and looks at no receive state (43_transmit R115 to R119). -/

namespace Sys2Proof.Machine

/-! ### The frame that is sent -/

@[simp] theorem checksumFn_nil : checksumFn [] = 0#8 := rfl

/-- The truncated sum adds byte by byte (42_codec R103). -/
@[simp] theorem checksumFn_cons (b : Byte) (bs : List Byte) : checksumFn (b :: bs) = b + checksumFn bs := by
  simp [checksumFn, sumBytes, BitVec.ofNat_add]

/-- The frame of no data bytes has TYPE as its checksum (43_transmit R116). -/
theorem frameOf_empty (t : Byte) :
    frameOf checksumFn t 0x00#8 [] = [0xF0#8, 0xCA#8, t, 0x00#8, t, 0x53#8, 0x0F#8] := by
  simp [frameOf, Config.preamble1, Config.preamble2, Config.postamble1, Config.postamble2]

/-- The frame of one data byte (43_transmit R117). -/
theorem frameOf_oneByte (t d : Byte) :
    frameOf checksumFn t 0x01#8 [d] = [0xF0#8, 0xCA#8, t, 0x01#8, d, t + 0x01#8 + d, 0x53#8, 0x0F#8] := by
  simp [frameOf, Config.preamble1, Config.preamble2, Config.postamble1, Config.postamble2, BitVec.add_assoc]

/-- DECODE_FN takes back what ENCODE_FN has framed, at every legal CAPACITY (42_codec R111). -/
theorem decodeFn_of_encodeFn {ck : List Byte → Byte} {cap : Nat} {t : Byte} {d f : List Byte} (hcap : 7 ≤ cap)
    (h : encodeFn ck cap t d = .ok f) : decodeFn ck cap f = .ok ⟨t, BitVec.ofNat 8 d.length, d⟩ := by
  by_cases hlong : cap - 7 < d.length ∨ 255 < d.length
  · rw [encodeFn_of_tooLong t hlong] at h
    cases h
  · rw [encodeFn_of_fits t hlong] at h
    injection h with hf
    have hlen : d.length = (BitVec.ofNat 8 d.length).toNat := by
      rw [BitVec.toNat_ofNat, Nat.mod_eq_of_lt (by omega)]
    have hframe := decodeFn_of_declaredLength (ck := ck) (cap := cap) t
      (ck (t :: BitVec.ofNat 8 d.length :: d)) 0x53#8 0x0F#8 hlen (by omega)
    rw [if_neg (by simp), if_neg (by simp)] at hframe
    exact hf ▸ hframe

theorem wellFormedFrame_of_encodeFn {cap : Nat} {t : Byte} {d f : List Byte} (hcap : 7 ≤ cap)
    (h : encodeFn checksumFn cap t d = .ok f) : wellFormedFrame cap f = true := by
  rw [wellFormedFrame, decodeFn_of_encodeFn hcap h, DecodeResult.isOk]

/-! ### Sending a frame -/

section
variable {t : Byte} {data : List Byte} {s : State}

theorem sendFrame_of_rejected (h : encodeFn checksumFn s.capacity t data = .rejected) :
    sendFrame t data s = .next (s.returns (.sent .rejected)) := by
  rw [sendFrame, h]
  rfl

theorem sendFrame_of_ok {f : List Byte} (h : encodeFn checksumFn s.capacity t data = .ok f) :
    sendFrame t data s = .next ((s.txWrite f).returns (.sent .ok)) := by
  rw [sendFrame, h]
  rfl

/-- With `len(DATA) = LEN` the operation word plays no part. -/
theorem sendGeneral_of_length (w : OpWord) {len : Byte} (h : data.length = len.toNat) :
    sendGeneral w t len data s = sendFrame t data s := by
  rw [sendGeneral, sendOperands_eq_next.mpr ⟨h, rfl⟩, andThen_next]

end

theorem exec_sendPacket {len : Byte} {data : List Byte} (t : Byte) (s : State) (h : data.length = len.toNat) :
    exec (.sendPacket t len data) s = sendFrame t data s :=
  sendGeneral_of_length _ h

theorem exec_sendPacket0 (t : Byte) (s : State) : exec (.sendPacket0 t) s = sendFrame t [] s :=
  sendGeneral_of_length (data := []) (len := 0x00#8) (opWord 0x6#4 t) rfl

theorem exec_sendPacket1 (t d : Byte) (s : State) : exec (.sendPacket1 t d) s = sendFrame t [d] s :=
  sendGeneral_of_length (data := [d]) (len := 0x01#8) (opWord 0x7#4 t) rfl

/-- A SEND operation that answers has passed its length check, which looks at the operands alone; so on every state it
sends the same data. -/
theorem exec_send_eq_sendFrame {i : Instr} {s u : State}
    (hi : (∃ t, i = .sendPacket0 t) ∨ (∃ t d, i = .sendPacket1 t d) ∨ ∃ t len data, i = .sendPacket t len data)
    (h : exec i s = .next u) : ∃ t data, ∀ s', exec i s' = sendFrame t data s' := by
  obtain ⟨t, rfl⟩ | ⟨t, d, rfl⟩ | ⟨t, len, data, rfl⟩ := hi
  · exact ⟨t, [], exec_sendPacket0 t⟩
  · exact ⟨t, [d], exec_sendPacket1 t d⟩
  · obtain ⟨d, hd, _⟩ := andThen_eq_next.mp (show sendGeneral (opWord 0x8#4 t) t len data s = .next u from h)
    obtain ⟨hlen, _⟩ := sendOperands_eq_next.mp hd
    exact ⟨t, data, fun s' => exec_sendPacket t s' hlen⟩

/-- Settles O51: a send depends on CAPACITY and its operands alone, and by the round trip the frame it writes is
well-formed. -/
theorem transmitPathIsIndependent : Obligations.TransmitPathIsIndependent := by
  intro i s u hi hcap h
  obtain ⟨t, data, hexec⟩ := exec_send_eq_sendFrame hi h
  rw [hexec] at h
  obtain ⟨he, rfl⟩ | ⟨f, he, rfl⟩ := sendFrame_next h
  · refine ⟨rfl, .inl rfl, fun st cur used m v ty len => ?_⟩
    rw [hexec]
    exact sendFrame_of_rejected he
  · refine ⟨rfl, .inr ⟨f, rfl, wellFormedFrame_of_encodeFn hcap he⟩, fun st cur used m v ty len => ?_⟩
    rw [hexec]
    exact sendFrame_of_ok he

/-! ### The two short forms -/

/-- An operation word with OP = 6 is SEND_PACKET0 of its ARG (30_encoding R70). -/
theorem decodeHost_sendPacket0 (t : Byte) : decodeHost { word := opWord 0x6#4 t } = .ok (.sendPacket0 t) := by
  simp [decodeHost]

/-- An operation word with OP = 7 is SEND_PACKET1 of its ARG and the side operand D (30_encoding R70). -/
theorem decodeHost_sendPacket1 (t d : Byte) :
    decodeHost { word := opWord 0x7#4 t, d := d } = .ok (.sendPacket1 t d) := by
  simp [decodeHost]

/-- Settles O49: no CAPACITY is too small for no data. -/
theorem sendPacket0IsTheEmptyForm : Obligations.SendPacket0IsTheEmptyForm := by
  refine fun t s => ⟨decodeHost_sendPacket0 t, ?_, ?_⟩
  · rw [exec_sendPacket0, exec_sendPacket t s rfl]
  · have hfits : encodeFn checksumFn s.capacity t [] = .ok (frameOf checksumFn t 0x00#8 []) :=
      encodeFn_of_fits t (by simp)
    rw [exec_sendPacket0, sendFrame_of_ok hfits, frameOf_empty]
    rfl

/-- Settles O50: one data byte is too long exactly when MAX_PAYLOAD is 0. -/
theorem sendPacket1IsTheOneByteForm : Obligations.SendPacket1IsTheOneByteForm := by
  refine fun t d s => ⟨decodeHost_sendPacket1 t d, ?_, fun hsmall => ?_, fun hroom => ?_⟩
  · rw [exec_sendPacket1, exec_sendPacket t s rfl]
  · have hlong : s.capacity - 7 < [d].length ∨ 255 < [d].length := .inl (by rw [List.length_singleton]; omega)
    rw [exec_sendPacket1, sendFrame_of_rejected (encodeFn_of_tooLong t hlong)]
    rfl
  · have hfits : encodeFn checksumFn s.capacity t [d] = .ok (frameOf checksumFn t 0x01#8 [d]) :=
      encodeFn_of_fits t (by rw [List.length_singleton]; omega)
    rw [exec_sendPacket1, sendFrame_of_ok hfits, frameOf_oneByte]
    rfl

end Sys2Proof.Machine
end

section
/-! PROOF. The two encodings: decoding and encoding are inverse, and the printed key table selects one row
(30_encoding R68 to R72). -/

namespace Sys2Proof

open Sys2Proof.Machine

/-! ### Fields of a key -/

/-- The mask of a printed row acts on the two fields of a key apart. -/
theorem rxKey_and (st st' : StateCode) (b b' : Byte) : rxKey st b &&& rxKey st' b' = rxKey (st &&& st') (b &&& b') :=
  BitVec.and_append

theorem rxKey_eq_iff {st st' : StateCode} {b b' : Byte} : rxKey st b = rxKey st' b' ↔ st = st' ∧ b = b' := by
  refine ⟨fun h => ⟨?_, ?_⟩, fun ⟨h, h'⟩ => by rw [h, h']⟩
  · simpa using congrArg keyState h
  · simpa using congrArg keyByte h

/-- A key is its parse state joined with its byte. -/
theorem exists_rxKey (k : RxKey) : ∃ st b, k = rxKey st b := ⟨keyState k, keyByte k, (rxKey_fields k).symm⟩

/-- The low bit of the code, which ILLEGAL_STATE carries, as read from the key. -/
@[simp] theorem rxKey_lowBit (st : StateCode) (b : Byte) : (rxKey st b).extractLsb' 8 1 = st.extractLsb' 0 1 := by
  apply BitVec.eq_of_getLsbD_eq
  intro i hi
  obtain rfl : i = 0 := by omega
  rw [BitVec.getLsbD_extractLsb', BitVec.getLsbD_extractLsb', rxKey, BitVec.getLsbD_append]
  rfl

theorem stateCode_cases (st : StateCode) :
    (st = 0#3 ∨ st = 1#3 ∨ st = 2#3 ∨ st = 3#3 ∨ st = 4#3 ∨ st = 5#3) ∨ 6 ≤ st.toNat := by
  simp only [← BitVec.toNat_inj, BitVec.toNat_ofNat]
  omega

theorem illegalCode_cases : ∀ st : StateCode, 6 ≤ st.toNat → st = 6#3 ∨ st = 7#3 := by decide

/-! ### The keys of the rows -/

@[simp] theorem encode_sp1Pre1 : encode .sp1Pre1 = .key (rxKey 0#3 0xF0#8) := rfl
@[simp] theorem encode_sp1Other (b : Byte) : encode (.sp1Other b) = .key (rxKey 0#3 b) := rfl
@[simp] theorem encode_sp2Pre2 : encode .sp2Pre2 = .key (rxKey 1#3 0xCA#8) := rfl
@[simp] theorem encode_sp2Pre1 : encode .sp2Pre1 = .key (rxKey 1#3 0xF0#8) := rfl
@[simp] theorem encode_sp2Other (b : Byte) : encode (.sp2Other b) = .key (rxKey 1#3 b) := rfl
@[simp] theorem encode_rcStore (b : Byte) : encode (.rcStore b) = .key (rxKey 2#3 b) := rfl
@[simp] theorem encode_rcOverflow (b : Byte) : encode (.rcOverflow b) = .key (rxKey 2#3 b) := rfl
@[simp] theorem encode_rcEnd (b : Byte) : encode (.rcEnd b) = .key (rxKey 2#3 b) := rfl
@[simp] theorem encode_spo1Post1 : encode .spo1Post1 = .key (rxKey 3#3 0x53#8) := rfl
@[simp] theorem encode_spo1Other (b : Byte) : encode (.spo1Other b) = .key (rxKey 3#3 b) := rfl
@[simp] theorem encode_spo2Post2Ok : encode .spo2Post2Ok = .key (rxKey 4#3 0x0F#8) := rfl
@[simp] theorem encode_spo2Post2Bad : encode .spo2Post2Bad = .key (rxKey 4#3 0x0F#8) := rfl
@[simp] theorem encode_spo2Other (b : Byte) : encode (.spo2Other b) = .key (rxKey 4#3 b) := rfl
@[simp] theorem encode_boPre1 : encode .boPre1 = .key (rxKey 5#3 0xF0#8) := rfl
@[simp] theorem encode_boOther (b : Byte) : encode (.boOther b) = .key (rxKey 5#3 b) := rfl
@[simp] theorem encode_illegalState (low : BitVec 1) (b : Byte) :
    encode (.illegalState low b) = .key (rxKey (0x3#2 ++ low) b) := rfl

/-- The two high bits of the illegal codes make them 6 and 7. -/
theorem six_le_illegalCode (low : BitVec 1) : 6 ≤ (0x3#2 ++ low).toNat := by
  revert low
  decide

/-! ### Encode, then decode -/

/-- The operation word of an operation whose ARG must be 0 passes the test of its ARG. -/
@[simp] theorem needZeroArg_opWord (op : BitVec 4) (i : Instr) : needZeroArg (opWord op 0#8) i = .ok i := by
  simp [needZeroArg]

/-- Settles O1: each word is evaluated. -/
theorem sampleWordsDecode : Obligations.SampleWordsDecode := by
  unfold Obligations.SampleWordsDecode
  decide

/-- Settles O2: the fields of a joined word are those it was joined from, and a default row's byte is none of the
exact ones. -/
theorem decodeOfEncodeIsIdentity : Obligations.DecodeOfEncodeIsIdentity := by
  intro i c hwf hcond
  cases i with
  | processInput | reset | getState | getPacket | pktHasData | pktReadData | sendPacket0 | sendPacket1 | sendPacket
  | checksum | encodeFrame | decodeFrame | hasPacket | reservedD | reservedE | reservedF =>
    simp [encode, decode, decodeHost]
  | sp1Pre1 | sp1Other | sp2Pre2 | sp2Pre1 | sp2Other | spo1Post1 | spo1Other | spo2Other | boPre1 | boOther =>
    simp_all [decode, decodeKey, instrOfRow, Instr.wellFormed, Config.preamble1, Config.preamble2, Config.postamble1,
      Config.postamble2]
  | rcStore | rcOverflow | rcEnd | spo2Post2Ok | spo2Post2Bad =>
    simp_all [decode, decodeKey, instrOfRow, Instr.condHolds, RowCond.holds]
  | illegalState low b =>
    have hlow : (0x3#2 ++ low).extractLsb' 0 1 = low := low_of_append _ _
    simpa [decode, decodeKey, rowOfKey_illegal (six_le_illegalCode low), instrOfRow] using hlow

/-! ### Decode, then encode -/

/-- What a key decodes to has the key as its encoding, is well-formed, and is selected under the key's conditions. -/
theorem encode_decodeKey (k : RxKey) (c : RxCond) :
    encode (decodeKey k c) = .key k ∧ (decodeKey k c).wellFormed = true ∧ (decodeKey k c).condHolds c = true := by
  obtain ⟨st, b, rfl⟩ := exists_rxKey k
  rw [decodeKey]
  obtain (rfl | rfl | rfl | rfl | rfl | rfl) | h := stateCode_cases st
  · rw [rowOfKey_sp1]
    split_ifs <;> simp_all [instrOfRow, Instr.wellFormed, Instr.condHolds, Config.preamble1]
  · rw [rowOfKey_sp2]
    split_ifs <;> simp_all [instrOfRow, Instr.wellFormed, Instr.condHolds, Config.preamble1, Config.preamble2]
  · rw [rowOfKey_rc]
    split_ifs <;> simp_all [instrOfRow, Instr.wellFormed, Instr.condHolds, RowCond.holds]
  · rw [rowOfKey_spo1]
    split_ifs <;> simp_all [instrOfRow, Instr.wellFormed, Instr.condHolds, Config.postamble1]
  · rw [rowOfKey_spo2]
    split_ifs <;> simp_all [instrOfRow, Instr.wellFormed, Instr.condHolds, Config.postamble2, RowCond.holds]
  · rw [rowOfKey_bo]
    split_ifs <;> simp_all [instrOfRow, Instr.wellFormed, Instr.condHolds, Config.preamble1]
  · rw [rowOfKey_illegal h]
    simp [instrOfRow, illegalCode_fields st h, Instr.wellFormed, Instr.condHolds]

/-- A host word that decodes is joined from the operation code that selected its instruction and from the ARG. -/
theorem exists_encode_of_decodeHost {c : HostCall} {i : Instr} (h : decodeHost c = .ok i) :
    ∃ c', encode i = .host c' ∧ c'.word = c.word := by
  have hop (n : Nat) (hn : (opOf c.word).toNat = n) : opWord (BitVec.ofNat 4 n) (argOf c.word) = c.word := by
    rw [← hn, BitVec.ofNat_toNat, BitVec.setWidth_eq, opWord_fields]
  unfold decodeHost at h
  split at h
  case h_6 hn | h_7 hn | h_8 hn | h_9 hn | h_11 hn | h_14 hn | h_15 hn =>
    cases h
    exact ⟨_, rfl, hop _ hn⟩
  case h_16 =>
    cases h
    have hlt := (opOf c.word).isLt
    exact ⟨_, rfl, hop 15 (by grind)⟩
  all_goals
    rename_i hn
    obtain ⟨harg, rfl⟩ := needZeroArg_eq_ok.mp h
    exact ⟨_, rfl, harg ▸ hop _ hn⟩

/-- Settles O3: no field of a word or key is dropped by its decoder. -/
theorem encodeOfDecodeKeepsTheWord : Obligations.EncodeOfDecodeKeepsTheWord :=
  ⟨fun _ _ h => ⟨decodeHost_isRxRow h, exists_encode_of_decodeHost h⟩, encode_decodeKey⟩

/-! ### The printed table -/

/-- The printed rows with the two fields of their match and mask apart. -/
theorem rxTable_fields : rxTable =
    [⟨.sp1Pre1, rxKey 0#3 0xF0#8, rxKey 7#3 0xFF#8, false, .always⟩,
     ⟨.sp1Other, rxKey 0#3 0x00#8, rxKey 7#3 0x00#8, true, .always⟩,
     ⟨.sp2Pre2, rxKey 1#3 0xCA#8, rxKey 7#3 0xFF#8, false, .always⟩,
     ⟨.sp2Pre1, rxKey 1#3 0xF0#8, rxKey 7#3 0xFF#8, false, .always⟩,
     ⟨.sp2Other, rxKey 1#3 0x00#8, rxKey 7#3 0x00#8, true, .always⟩,
     ⟨.rcStore, rxKey 2#3 0x00#8, rxKey 7#3 0x00#8, false, .neither⟩,
     ⟨.rcOverflow, rxKey 2#3 0x00#8, rxKey 7#3 0x00#8, false, .overflow⟩,
     ⟨.rcEnd, rxKey 2#3 0x00#8, rxKey 7#3 0x00#8, false, .frameEnd⟩,
     ⟨.spo1Post1, rxKey 3#3 0x53#8, rxKey 7#3 0xFF#8, false, .always⟩,
     ⟨.spo1Other, rxKey 3#3 0x00#8, rxKey 7#3 0x00#8, true, .always⟩,
     ⟨.spo2Post2Ok, rxKey 4#3 0x0F#8, rxKey 7#3 0xFF#8, false, .checksumMatches⟩,
     ⟨.spo2Post2Bad, rxKey 4#3 0x0F#8, rxKey 7#3 0xFF#8, false, .checksumDiffers⟩,
     ⟨.spo2Other, rxKey 4#3 0x00#8, rxKey 7#3 0x00#8, true, .always⟩,
     ⟨.boPre1, rxKey 5#3 0xF0#8, rxKey 7#3 0xFF#8, false, .always⟩,
     ⟨.boOther, rxKey 5#3 0x00#8, rxKey 7#3 0x00#8, true, .always⟩,
     ⟨.illegalState, rxKey 6#3 0x00#8, rxKey 6#3 0x00#8, false, .always⟩] := rfl

/-- A row fits a key by its two fields, each under its own mask. -/
theorem fits_rxKey (r : RxRow) (st st' mask : StateCode) (b b' mask' : Byte) (d : Bool) (cond : RowCond) (c : RxCond) :
    RxEntry.fits ⟨r, rxKey st' b', rxKey mask mask', d, cond⟩ (rxKey st b) c =
      (decide (st &&& mask = st' ∧ b &&& mask' = b') && cond.holds c) := by
  rw [RxEntry.fits, rxKey_and]
  simp only [beq_eq_decide, rxKey_eq_iff]

@[simp] theorem byte_and_allOnes (b : Byte) : b &&& 255#8 = b := BitVec.and_allOnes

/-- The rows that apply in a parse state are found by the byte and the conditions alone. -/
theorem rowsThatApply_rxKey (st : StateCode) (b : Byte) (c : RxCond) :
    rowsThatApply (rxKey st b) c = [rowOfKey (rxKey st b) c] := by
  obtain ⟨overflow, frameEnd, checksumOk⟩ := c
  obtain (rfl | rfl | rfl | rfl | rfl | rfl) | h := stateCode_cases st
  · by_cases hb : b = 0xF0#8 <;> simp [rowsThatApply, rxTable_fields, fits_rxKey, RowCond.holds, hb]
  · by_cases hb₂ : b = 0xCA#8
    · simp [rowsThatApply, rxTable_fields, fits_rxKey, RowCond.holds, hb₂]
    · by_cases hb₁ : b = 0xF0#8 <;> simp [rowsThatApply, rxTable_fields, fits_rxKey, RowCond.holds, hb₁, hb₂]
  · cases overflow <;> cases frameEnd <;> simp [rowsThatApply, rxTable_fields, fits_rxKey, RowCond.holds]
  · by_cases hb : b = 0x53#8 <;> simp [rowsThatApply, rxTable_fields, fits_rxKey, RowCond.holds, hb]
  · by_cases hb : b = 0x0F#8
    · cases checksumOk <;> simp [rowsThatApply, rxTable_fields, fits_rxKey, RowCond.holds, hb]
    · simp [rowsThatApply, rxTable_fields, fits_rxKey, RowCond.holds, hb]
  · by_cases hb : b = 0xF0#8 <;> simp [rowsThatApply, rxTable_fields, fits_rxKey, RowCond.holds, hb]
  · rw [rowOfKey_illegal h]
    obtain rfl | rfl := illegalCode_cases st h <;>
      simp [rowsThatApply, rxTable_fields, fits_rxKey, RowCond.holds]

/-- Settles O4: a parse state leaves one block of the table, and the byte and the conditions one row of it. -/
theorem exactlyOneRowApplies : Obligations.ExactlyOneRowApplies := by
  intro k c
  obtain ⟨st, b, rfl⟩ := exists_rxKey k
  exact rowsThatApply_rxKey st b c

end Sys2Proof
end

section
/-! PROOF. What a receive row that answers has done, on any state: it discarded its byte, stored it, or stored it and
published the frame (40_receive R76 to R93). -/

namespace Sys2Proof.Machine

/-! ### The selected row is the decoded instruction -/

/-- A row run on the byte of its key is the instruction its key carries. -/
theorem runRow_eq_exec (r : RxRow) (b : Byte) (s : State) :
    runRow r b s = exec (instrOfRow r (rxKey s.state b)) s := by
  cases r <;> simp only [runRow, instrOfRow, keyByte_rxKey, rxKey_lowBit, exec]

theorem instrOfRow_isRxRow (r : RxRow) (k : RxKey) : (instrOfRow r k).isRxRow = true := by
  cases r <;> rfl

/-- Settles O8: both run the row selected by the key and the conditions. -/
theorem receiveStepRunsTheDecodedRow : Obligations.ReceiveStepRunsTheDecodedRow := by
  intro b s c hc
  rw [rxStep, hc, andThen_next, runRow_eq_exec]
  rfl

/-- Settles O6: the row stops in every state, and the illegal codes select it. -/
theorem illegalStateFaults : Obligations.IllegalStateFaults :=
  ⟨fun _ _ _ => rfl, fun b _ h => rxStep_illegal b h⟩

/-! ### The three effects of a row -/

/-- What the row `i` has done when it answers `t` from `s`. -/
inductive RowEffect (i : Instr) (s t : State) : Prop where
  /-- The byte is discarded: only STATE and TRACE change. -/
  | discarded (hindex : storeIndex i s = none) (hi : i ≠ .spo2Post2Ok) (st : StateCode) (tr : List TraceEntry)
      (ht : t = { s with state := st, trace := s.trace ++ tr })
  /-- The byte is stored at index `a`, which ends the Packet's view. -/
  | stored (a : Nat) (hindex : storeIndex i s = some a) (ha : a < s.capacity) (hi : i ≠ .spo2Post2Ok) (b : Byte)
      (st : StateCode) (tr : List TraceEntry)
      (ht : t = { State.stored b { s with cursor := a } with state := st, trace := s.trace ++ tr })
  /-- The last byte is stored and the frame in the buffer is published. -/
  | published (hi : i = .spo2Post2Ok) (hcur : s.cursor < s.capacity)
      (ht : t = ((s.stored 0x0F#8).publish ((s.stored 0x0F#8).buf.read 2) ((s.stored 0x0F#8).buf.read 3)
        ((s.stored 0x0F#8).buf.span 4 (s.stored 0x0F#8).n)).setState 0#3)

/-- What Publish has done when it answers. -/
theorem publishFrame_next {s t : State} (h : publishFrame s = .next t) :
    t = s.publish (s.buf.read 2) (s.buf.read 3) (s.buf.span 4 s.n) := by
  obtain ⟨ty, hty, h⟩ := andThen_eq_next.mp h
  obtain ⟨n, hn, h⟩ := andThen_eq_next.mp h
  obtain ⟨d, hd, h⟩ := andThen_eq_next.mp h
  injection h with h
  obtain rfl := (bufRead_eq_next.mp hty).2
  obtain rfl := (bufRead_eq_next.mp hn).2
  obtain rfl := bufSpan_next hd
  exact h.symm

/-- A row that stores at CURSOR and goes on with an update of STATE and TRACE. -/
theorem RowEffect.of_store {i : Instr} {s t : State} {b : Byte} {f : State → State}
    (hindex : storeIndex i s = some s.cursor) (hi : i ≠ .spo2Post2Ok)
    (hf : ∀ u, ∃ st tr, f u = { u with state := st, trace := u.trace ++ tr })
    (h : andThen (store b s) (fun u => .next (f u)) = .next t) : RowEffect i s t := by
  obtain ⟨u, hu, h⟩ := andThen_eq_next.mp h
  obtain ⟨hcur, rfl⟩ := store_eq_next.mp hu
  injection h with h
  obtain ⟨st, tr, hst⟩ := hf (s.stored b)
  exact .stored s.cursor hindex hcur hi b st tr (h ▸ hst)

/-- What a receive row that answers has done. -/
theorem exec_rxRow_next {i : Instr} {s t : State} (hrow : i.isRxRow = true) (h : exec i s = .next t) :
    RowEffect i s t := by
  have hstate (c : StateCode) (u : State) : u.setState c = { u with state := c, trace := u.trace ++ [] } := by
    rw [List.append_nil]
    rfl
  cases i with
  | processInput | reset | getState | getPacket | pktHasData | pktReadData | sendPacket0 | sendPacket1 | sendPacket
  | checksum | encodeFrame | decodeFrame | hasPacket | reservedD | reservedE | reservedF => cases hrow
  | illegalState => cases h
  | sp1Other | boOther =>
    cases h
    exact .discarded rfl (by simp) s.state [] (hstate s.state s)
  | sp2Other | spo1Other | spo2Other =>
    cases h
    exact .discarded rfl (by simp) _ _ rfl
  | sp1Pre1 | boPre1 =>
    obtain ⟨hcap, rfl⟩ := startFrame_eq_next.mp h
    exact .stored 0 rfl hcap (by simp) _ _ [] (hstate _ _)
  | sp2Pre1 =>
    obtain ⟨u, hu, h⟩ := andThen_eq_next.mp (show andThen (startFrame s) _ = _ from h)
    obtain ⟨hcap, rfl⟩ := startFrame_eq_next.mp hu
    cases h
    exact .stored 0 rfl hcap (by simp) _ _ _ rfl
  | rcStore b =>
    obtain ⟨hcur, rfl⟩ := store_eq_next.mp h
    exact .stored s.cursor rfl hcur (by simp) b s.state [] (hstate s.state (s.stored b))
  | sp2Pre2 | rcEnd | spo1Post1 => exact .of_store rfl (by simp) (fun u => ⟨_, _, hstate _ u⟩) h
  | rcOverflow | spo2Post2Bad => exact .of_store rfl (by simp) (fun u => ⟨_, _, rfl⟩) h
  | spo2Post2Ok =>
    obtain ⟨u, hu, h⟩ := andThen_eq_next.mp (show andThen (store Config.postamble2 s) _ = _ from h)
    obtain ⟨hcur, rfl⟩ := store_eq_next.mp hu
    obtain ⟨v, hv, h⟩ := andThen_eq_next.mp h
    obtain rfl := publishFrame_next hv
    cases h
    exact .published rfl hcur rfl

/-- What a receive step that answers has done. -/
theorem rxStep_next {b : Byte} {s t : State} (h : rxStep b s = .next t) : ∃ i, RowEffect i s t := by
  obtain ⟨c, _, h⟩ := andThen_eq_next.mp h
  rw [runRow_eq_exec] at h
  exact ⟨_, exec_rxRow_next (instrOfRow_isRxRow _ _) h⟩

/-- Settles O23: one clause for each effect a row can have. -/
theorem receiveRowsChangeOneByte : Obligations.ReceiveRowsChangeOneByte := by
  intro i s t hrow h
  obtain ⟨hindex, hi, st, tr, rfl⟩ | ⟨a, hindex, ha, hi, b, st, tr, rfl⟩ | ⟨rfl, hcur, rfl⟩ := exec_rxRow_next hrow h
  · exact ⟨rfl, fun a ha => by simp [hindex] at ha, fun _ => rfl, fun _ => ⟨rfl, rfl, rfl, id⟩⟩
  · refine ⟨rfl, fun a' ha' => ?_, fun hnone => by simp [hindex] at hnone, fun _ => ⟨rfl, rfl, rfl, nofun⟩⟩
    obtain rfl : a = a' := by simpa [hindex] using ha'
    exact ⟨ha, rfl, rfl, fun x hx => Memory.read_write_ne s.buf b hx⟩
  · refine ⟨rfl, fun a' ha' => ?_, nofun, fun hne => absurd rfl hne⟩
    obtain rfl : s.cursor = a' := by simpa [storeIndex] using ha'
    exact ⟨hcur, rfl, rfl, fun x hx => Memory.read_write_ne s.buf _ hx⟩

/-- Settles O24: a step that stores ends the view unless it publishes, and one that discards leaves it. -/
theorem storesEndThePacketView : Obligations.StoresEndThePacketView := by
  intro b s t h hv
  obtain ⟨i, heff⟩ := rxStep_next h
  obtain ⟨_, _, st, tr, rfl⟩ | ⟨_, _, _, _, _, _, _, rfl⟩ | ⟨_, _, rfl⟩ := heff
  · exact .inr ⟨hv, rfl, rfl, rfl, rfl, rfl⟩
  · cases hv
  · exact .inl rfl

/-! ### CAPACITY is fixed -/

theorem rxStep_capacity {b : Byte} {s t : State} (h : rxStep b s = .next t) : t.capacity = s.capacity := by
  rw [rxStep_frame h]

theorem transportMove_capacity {s t : State} (h : transportMove s = .next t) : t.capacity = s.capacity := by
  obtain ⟨_, _, rfl⟩ | ⟨_, _, _, rfl⟩ := transportMove_next h <;> rfl

/-- What PROCESS_INPUT has done when it answers. -/
theorem execProcessInput_next {s t : State} (h : exec .processInput s = .next t) :
    ∃ u, drain s.pendingBytes s = .next u ∧ t = u.returns .unit := by
  obtain ⟨u, hu, h⟩ := andThen_eq_next.mp (show andThen (drain s.pendingBytes s) (finish .unit) = _ from h)
  exact ⟨u, hu, finish_eq_next.mp h⟩

theorem drain_capacity {k : Nat} {s t : State} (h : drain k s = .next t) : t.capacity = s.capacity :=
  drain_induct (P := fun u => u.capacity = s.capacity) (fun _ _ hu => hu)
    (fun _ _ _ hu hv => (rxStep_capacity hv).trans hu) (fun _ _ hu hv => (transportMove_capacity hv).trans hu) rfl h

theorem exec_host_capacity {i : Instr} {s t : State} (hrow : i.isRxRow = false) (h : exec i s = .next t) :
    t.capacity = s.capacity := by
  by_cases hpi : i = .processInput
  · subst hpi
    obtain ⟨u, hu, rfl⟩ := execProcessInput_next h
    exact (drain_capacity hu :)
  · obtain ⟨_, rfl⟩ | ⟨_, rfl⟩ | ⟨_, _, rfl⟩ := exec_host_next hrow hpi h <;> rfl

theorem step_capacity {s t : State} (h : step s = .next t) : t.capacity = s.capacity := by
  obtain ⟨_, ⟨_, rfl⟩ | ⟨_, _, _, _, hdec, hexec⟩ | ⟨_, _, _, rfl⟩⟩ := moveUnlessMarked_next h
  · rfl
  · exact (exec_host_capacity (decodeHost_isRxRow hdec) hexec :)
  · rfl

/-- Settles O52: power-on sets each field, and nothing a step runs writes CAPACITY. -/
theorem powerOnState : Obligations.PowerOnState :=
  ⟨fun _ _ => ⟨rfl, rfl, rfl, rfl, rfl, rfl, rfl, rfl, rfl, rfl, rfl, rfl, rfl, rfl⟩, ⟨[], rfl⟩,
    fun _ _ => step_capacity⟩

end Sys2Proof.Machine
end

section
/-! PROOF. PROCESS_INPUT as the feeding of bytes: the receive machine reads neither the queue, nor what is still to
arrive, nor the last result, so each byte read is one RX_STEP (40_receive R77, 20_memory R48). -/

namespace Sys2Proof.Machine

/-! ### What no receive step reads -/

/-- The state with another RXQ, other arrivals and another last result. -/
def State.onLine (q : List Byte) (a : List (List Byte)) (r : Option Result) (s : State) : State :=
  { s with rxq := q, arrivals := a, result := r }

/-- Apply `g` to the state an operation answers. -/
def mapNext (g : State → State) (o : Host.Outcome State Fault Refusal) : Host.Outcome State Fault Refusal :=
  andThen o fun t => .next (g t)

theorem mapNext_next (g : State → State) (s : State) : mapNext g (.next s) = .next (g s) := rfl

/-- An operation commutes with a change of the state when both its parts do. -/
theorem andThen_mapNext {g : State → State} {o : Host.Outcome State Fault Refusal}
    {f : State → Host.Outcome State Fault Refusal} (hf : ∀ s, f (g s) = mapNext g (f s)) :
    andThen (mapNext g o) f = mapNext g (andThen o f) := by
  cases o with
  | next s => exact hf s
  | fault | refused => rfl

section
variable (q : List Byte) (a : List (List Byte)) (r : Option Result)

theorem bufSpan_onLine (lo n : Nat) (s : State) : bufSpan lo n (s.onLine q a r) = bufSpan lo n s := by
  induction n generalizing lo with
  | zero => rfl
  | succ k ih =>
    rw [bufSpan, bufSpan, ih]
    rfl

theorem store_onLine (b : Byte) (s : State) :
    store b (s.onLine q a r) = mapNext (State.onLine q a r) (store b s) := by
  by_cases h : s.cursor < s.capacity
  · rw [store_of_lt b h, store_of_lt b (s := s.onLine q a r) h]
    rfl
  · rw [store_of_ge b (Nat.not_lt.mp h), store_of_ge b (s := s.onLine q a r) (Nat.not_lt.mp h)]
    rfl

theorem startFrame_onLine (s : State) :
    startFrame (s.onLine q a r) = mapNext (State.onLine q a r) (startFrame s) := by
  rw [startFrame, startFrame, ← andThen_mapNext (fun _ => rfl), ← store_onLine]
  rfl

theorem publishFrame_onLine (s : State) :
    publishFrame (s.onLine q a r) = mapNext (State.onLine q a r) (publishFrame s) := by
  simp only [publishFrame, bufSpan_onLine, mapNext, andThen_assoc]
  rfl

theorem commandCond_onLine (s : State) : commandCond (s.onLine q a r) = commandCond s := rfl

theorem checksumMatches_onLine (s : State) : checksumMatches (s.onLine q a r) = checksumMatches s := by
  simp only [checksumMatches, bufSpan_onLine]
  rfl

theorem rxCond_onLine (b : Byte) (s : State) : rxCond b (s.onLine q a r) = rxCond b s := by
  have hmap {α : Type} (o : Host.Outcome State Fault Refusal) (f : State → Host.Outcome α Fault Refusal)
      (hf : ∀ t, f (t.onLine q a r) = f t) : andThen (mapNext (State.onLine q a r) o) f = andThen o f := by
    cases o with
    | next t => exact hf t
    | fault | refused => rfl
  rw [rxCond, rxCond, store_onLine, hmap _ _ (commandCond_onLine q a r),
    hmap _ _ fun t => by rw [checksumMatches_onLine]]
  rfl

theorem runRow_onLine (row : RxRow) (b : Byte) (s : State) :
    runRow row b (s.onLine q a r) = mapNext (State.onLine q a r) (runRow row b s) := by
  cases row with
  | sp1Pre1 | boPre1 => exact startFrame_onLine q a r s
  | sp1Other | sp2Other | spo1Other | spo2Other | boOther | illegalState => rfl
  | rcStore => exact store_onLine q a r b s
  | sp2Pre1 =>
    simp only [runRow, execSp2Pre1]
    rw [startFrame_onLine, andThen_mapNext fun _ => rfl]
  | sp2Pre2 | rcOverflow | rcEnd | spo1Post1 | spo2Post2Bad =>
    simp only [runRow, execSp2Pre2, execRcOverflow, execRcEnd, execSpo1Post1, execSpo2Post2Bad]
    rw [store_onLine, andThen_mapNext fun _ => rfl]
  | spo2Post2Ok =>
    simp only [runRow, execSpo2Post2Ok]
    rw [store_onLine, andThen_mapNext fun t => ?_]
    rw [publishFrame_onLine, andThen_mapNext fun _ => rfl]

/-- A receive step reads neither the queue, nor what is still to arrive, nor the last result, and leaves them. -/
theorem rxStep_onLine (b : Byte) (s : State) :
    rxStep b (s.onLine q a r) = mapNext (State.onLine q a r) (rxStep b s) := by
  simp only [rxStep, rxCond_onLine, runRow_onLine]
  rw [mapNext, andThen_assoc]
  rfl

theorem feed_onLine (bs : List Byte) (s : State) :
    feed bs (s.onLine q a r) = mapNext (State.onLine q a r) (feed bs s) := by
  induction bs generalizing s with
  | nil => rfl
  | cons b bs ih => rw [feed_cons, feed_cons, rxStep_onLine, andThen_mapNext ih]

end

theorem mapNext_eq_next {g : State → State} {o : Host.Outcome State Fault Refusal} {t : State} :
    mapNext g o = .next t ↔ ∃ u, o = .next u ∧ t = g u := by
  rw [mapNext, andThen_eq_next]
  simp only [Host.Outcome.next.injEq, eq_comm]

/-- A property that every receive step keeps holds after the whole list is fed. -/
theorem feed_induct {P : State → Prop} (hstep : ∀ b s t, P s → rxStep b s = .next t → P t) {bs : List Byte}
    {s t : State} (hs : P s) (h : feed bs s = .next t) : P t := by
  induction bs generalizing s with
  | nil =>
    injection h with h
    exact h ▸ hs
  | cons b bs ih =>
    obtain ⟨u, hu, h⟩ := andThen_eq_next.mp (feed_cons b bs s ▸ h)
    exact ih (hstep b s u hs hu) h

/-- What a list that is fed leaves as it was (40_receive R94). -/
theorem feed_frame {bs : List Byte} {s t : State} (h : feed bs s = .next t) :
    t = { s with state := t.state, cursor := t.cursor, usedLen := t.usedLen, buf := t.buf, pktValid := t.pktValid,
                 pktType := t.pktType, pktLen := t.pktLen, publog := t.publog, trace := t.trace } :=
  feed_induct (P := fun t => t =
    { s with state := t.state, cursor := t.cursor, usedLen := t.usedLen, buf := t.buf, pktValid := t.pktValid,
             pktType := t.pktType, pktLen := t.pktLen, publog := t.publog, trace := t.trace })
    (fun b u v hu hv => by rw [rxStep_frame hv, hu]) rfl h

theorem feed_line {bs : List Byte} {s t : State} (h : feed bs s = .next t) :
    t.rxq = s.rxq ∧ t.arrivals = s.arrivals ∧ t.result = s.result ∧ t.endless = s.endless := by
  rw [feed_frame h]
  exact ⟨rfl, rfl, rfl, rfl⟩

theorem rxStep_line {b : Byte} {s t : State} (h : rxStep b s = .next t) :
    t.rxq = s.rxq ∧ t.arrivals = s.arrivals ∧ t.result = s.result ∧ t.endless = s.endless := by
  rw [rxStep_frame h]
  exact ⟨rfl, rfl, rfl, rfl⟩

theorem onLine_eq_self {q : List Byte} {a : List (List Byte)} {r : Option Result} {s : State} (hq : s.rxq = q)
    (ha : s.arrivals = a) (hr : s.result = r) : s.onLine q a r = s := by
  subst hq ha hr
  rfl

/-! ### The transport's move after a receive step (20_memory R48) -/

theorem transportMove_of_nil {s : State} (ha : s.arrivals = []) (he : s.endless = false) :
    transportMove s = .next s := by
  simp [transportMove, ha, he]

theorem transportMove_of_endless {s : State} (ha : s.arrivals = []) (he : s.endless = true) :
    transportMove s = .fault .neverReturns := by
  simp [transportMove, ha, he]

theorem transportMove_of_cons {s : State} {bs : List Byte} {rest : List (List Byte)} (ha : s.arrivals = bs :: rest) :
    transportMove s = .next { s.received bs with arrivals := rest } := by
  simp [transportMove, ha]

/-! ### The loop of PROCESS_INPUT -/

/-- The state with another RXQ. -/
def State.withRxq (q : List Byte) (s : State) : State := { s with rxq := q }

theorem withRxq_rxq (s : State) : s.withRxq s.rxq = s := rfl

/-- With `rest` left in the queue a receive step does what it does with the queue empty. -/
theorem rxStep_withRxq (b : Byte) (rest : List Byte) (s : State) :
    rxStep b (s.withRxq rest) = mapNext (State.onLine rest s.arrivals s.result) (rxStep b (s.withRxq [])) :=
  rxStep_onLine rest s.arrivals s.result b (s.withRxq [])

/-- With no bytes to come from the transport, the loop feeds the queue. -/
theorem drain_eq_feed {k : Nat} {q : List Byte} {s : State} (ha : s.arrivals = []) (he : s.endless = false)
    (hk : q.length ≤ k) : drain k (s.withRxq q) = feed q (s.withRxq []) := by
  induction k generalizing s q with
  | zero =>
    obtain rfl : q = [] := List.length_eq_zero_iff.mp (Nat.le_zero.mp hk)
    rfl
  | succ k ih =>
    cases q with
    | nil => rfl
    | cons b rest =>
      have hread : drain (k + 1) (s.withRxq (b :: rest)) =
          andThen (rxStep b (s.withRxq rest)) fun u => andThen (transportMove u) (drain k) := drain_cons rfl
      rw [hread, feed_cons, rxStep_withRxq]
      cases hu : rxStep b (s.withRxq []) with
      | fault | refused => rfl
      | next u =>
        obtain ⟨hq, ha', hr, he'⟩ := rxStep_line hu
        rw [mapNext_next, andThen_next, andThen_next]
        have hmove : transportMove (u.onLine rest s.arrivals s.result) = .next (u.withRxq rest) := by
          rw [show u.onLine rest s.arrivals s.result = u.withRxq rest from
            onLine_eq_self (s := u.withRxq rest) rfl ha' hr]
          exact transportMove_of_nil (ha'.trans ha) (he'.trans he)
        have hself : u.withRxq [] = u := onLine_eq_self hq rfl rfl
        rw [hmove, andThen_next, ih (ha'.trans ha) (he'.trans he) (Nat.le_of_succ_le_succ hk), hself]

theorem execProcessInput_eq_feed {s : State} (q : List Byte) (ha : s.arrivals = []) (he : s.endless = false) :
    exec .processInput (s.withRxq q) = andThen (feed q (s.withRxq [])) (finish .unit) := by
  have hfuel : q.length ≤ (s.withRxq q).pendingBytes := Nat.le_add_right _ _
  rw [exec, execProcessInput, drain_eq_feed ha he hfuel]

/-- What the loop has done with the first byte of the queue when it answers. -/
theorem drain_cons_next {k : Nat} {s t : State} {b : Byte} {rest : List Byte} (hq : s.rxq = b :: rest)
    (h : drain (k + 1) s = .next t) :
    ∃ v w, rxStep b (s.withRxq []) = .next v ∧
      transportMove (v.onLine rest s.arrivals s.result) = .next w ∧ drain k w = .next t := by
  rw [drain_cons hq] at h
  obtain ⟨u, hu, h⟩ := andThen_eq_next.mp h
  obtain ⟨v, hv, rfl⟩ := mapNext_eq_next.mp ((rxStep_withRxq b rest s).symm.trans hu)
  obtain ⟨w, hw, h⟩ := andThen_eq_next.mp h
  exact ⟨v, w, hv, hw, h⟩

/-- What the loop of PROCESS_INPUT has done from `s` when it answers `t`: it has fed the queue and then the first `n`
groups of arrivals, one group for each byte read while there are any. -/
def FedInOrder (s t : State) : Prop :=
  ∃ n u, n = min (s.rxq ++ (s.arrivals.take n).flatten).length s.arrivals.length ∧
    feed (s.rxq ++ (s.arrivals.take n).flatten) (s.withRxq []) = .next u ∧ t = { u with arrivals := s.arrivals.drop n }

theorem FedInOrder.of_empty {s : State} (hq : s.rxq = []) : FedInOrder s s := by
  refine ⟨0, s, by simp [hq], ?_, rfl⟩
  rw [List.take_zero, List.flatten_nil, List.append_nil, hq, feed_nil, State.withRxq, ← hq]

/-- Reading a byte with no arrivals left. -/
theorem FedInOrder.cons_of_noArrivals {s v t : State} {b : Byte} {rest : List Byte} (hq : s.rxq = b :: rest)
    (ha : s.arrivals = []) (hv : rxStep b (s.withRxq []) = .next v)
    (h : FedInOrder (v.onLine rest s.arrivals s.result) t) : FedInOrder s t := by
  obtain ⟨n, u, hn, hu, rfl⟩ := h
  obtain ⟨hvq, hva, hvr, _⟩ := rxStep_line hv
  have hself : (v.onLine rest s.arrivals s.result).withRxq [] = v := onLine_eq_self hvq hva hvr
  obtain rfl : n = 0 := by simpa [State.onLine, ha] using hn
  rw [hself] at hu
  refine ⟨0, u, by simp [ha], ?_, rfl⟩
  rw [hq, List.cons_append, feed_cons, hv, andThen_next, ← hu]
  rfl

/-- Reading a byte after which a group of bytes arrives. -/
theorem FedInOrder.cons_of_arrivals {s v t : State} {b : Byte} {rest bs : List Byte} {as : List (List Byte)}
    (hq : s.rxq = b :: rest) (ha : s.arrivals = bs :: as) (hv : rxStep b (s.withRxq []) = .next v)
    (h : FedInOrder (v.onLine (rest ++ bs) as s.result) t) : FedInOrder s t := by
  obtain ⟨n, u', hn, hu', rfl⟩ := h
  obtain ⟨hvq, hva, hvr, _⟩ := rxStep_line hv
  rw [show (v.onLine (rest ++ bs) as s.result).withRxq [] = v.onLine [] as s.result from rfl, feed_onLine] at hu'
  obtain ⟨u, hu, rfl⟩ := mapNext_eq_next.mp hu'
  obtain ⟨huq, _, hur, _⟩ := feed_line hu
  have hdrop : { u.onLine [] as s.result with arrivals := as.drop n } = { u with arrivals := as.drop n } :=
    congrArg (fun w : State => { w with arrivals := as.drop n })
      (onLine_eq_self (s := { u with arrivals := as }) (huq.trans hvq) rfl (hur.trans hvr))
  refine ⟨n + 1, u, ?_, ?_, ?_⟩
  · simp [State.onLine, hq, ha] at hn ⊢
    omega
  · rw [hq, ha, List.cons_append, feed_cons, hv, andThen_next, List.take_succ_cons, List.flatten_cons,
      ← List.append_assoc]
    exact hu
  · rw [ha]
    exact hdrop

theorem drain_next {k : Nat} {s t : State} (hk : s.pendingBytes ≤ k) (h : drain k s = .next t) : FedInOrder s t := by
  induction k generalizing s with
  | zero =>
    obtain rfl : s = t := by simpa [drain] using h
    exact .of_empty (List.length_eq_zero_iff.mp (by unfold State.pendingBytes at hk; omega))
  | succ k ih =>
    cases hq : s.rxq with
    | nil =>
      obtain rfl : s = t := by simpa [drain_empty hq] using h
      exact .of_empty hq
    | cons b rest =>
      obtain ⟨v, w, hv, hw, h⟩ := drain_cons_next hq h
      have hlen : s.rxq.length + s.arrivals.flatten.length ≤ k + 1 := hk
      obtain ⟨ha, _, rfl⟩ | ⟨bs, as, ha, rfl⟩ := transportMove_next hw
      · have ha : s.arrivals = [] := ha
        refine .cons_of_noArrivals hq ha hv (ih ?_ h)
        simp [State.pendingBytes, State.onLine, hq, ha] at hlen ⊢
        omega
      · have ha : s.arrivals = bs :: as := ha
        refine .cons_of_arrivals hq ha hv (ih ?_ h)
        simp [State.pendingBytes, State.onLine, hq, ha] at hlen ⊢
        omega

/-- Settles O26: the loop is the feeding of what it reads, and feeding writes the receive side alone. -/
theorem processInputFeedsEachByteOnce : Obligations.ProcessInputFeedsEachByteOnce := by
  intro s t h
  obtain ⟨_, hdrain, rfl⟩ := execProcessInput_next h
  obtain ⟨n, u, hn, hu, rfl⟩ := drain_next le_rfl hdrain
  refine ⟨⟨n, u, hn ▸ min_le_right _ _, hn, hu, rfl⟩, ?_⟩
  rw [feed_frame hu]
  exact ⟨rfl, rfl, rfl, rfl, rfl, rfl⟩

/-- Settles O27: both sides feed `xs` and then `ys`, and no step reads the result of the first call. -/
theorem splittingTheInputChangesNothing : Obligations.SplittingTheInputChangesNothing := by
  intro s t xs ys ha he h
  obtain ⟨u, hu, h⟩ := andThen_eq_next.mp ((execProcessInput_eq_feed xs ha he).symm.trans h)
  obtain rfl := finish_eq_next.mp h
  obtain ⟨huq, hua, hur, hue⟩ := feed_line hu
  have hleft : exec .processInput ((u.returns .unit).withRxq ys) =
      andThen (feed ys (u.onLine [] u.arrivals (some .unit))) (finish .unit) :=
    execProcessInput_eq_feed ys (hua.trans ha) (hue.trans he)
  have hright : exec .processInput (s.withRxq (xs ++ ys)) = andThen (feed ys u) (finish .unit) := by
    rw [execProcessInput_eq_feed _ ha he, feed_append, hu, andThen_next]
  refine hleft.trans (.trans ?_ hright.symm)
  rw [feed_onLine]
  cases hw : feed ys u with
  | fault | refused => rfl
  | next w =>
    obtain ⟨hwq, hwa, hwr, _⟩ := feed_line hw
    change Host.Outcome.next ((w.onLine [] u.arrivals w.result).returns .unit) = .next (w.returns .unit)
    rw [onLine_eq_self (q := []) (hwq.trans huq) hwa rfl]

end Sys2Proof.Machine
end

section
/-! PROOF. From an invariant state every receive step answers, by one of eleven moves, and each of them keeps the
invariant (10_state R33, 40_receive R76 to R93). -/

namespace Sys2Proof.Machine

/-! ### The moves -/

/-- The moves of the receive machine on an input byte. -/
inductive RxMove (s : State) : Byte → State → Prop where
  /-- A hunting machine discards the byte (40_receive R79, R92). -/
  | discard (b : Byte) (hst : Hunting s) (hb : b ≠ 0xF0#8) : RxMove s b s
  /-- A hunting machine starts a frame (R78, R91). -/
  | start (hst : Hunting s) : RxMove s 0xF0#8 ((s.clearCursor.stored 0xF0#8).setState 1#3)
  /-- SearchPreamble2 starts the frame again (R81). -/
  | restart (hst : s.state = 1#3) :
      RxMove s 0xF0#8 (((s.clearCursor.stored 0xF0#8).setState 1#3).traced .framing .sp2Pre1)
  /-- The preamble is complete (R80). -/
  | preamble (hst : s.state = 1#3) : RxMove s 0xCA#8 ((s.stored 0xCA#8).setState 2#3)
  /-- A framing byte is wrong and the frame is dropped (R82, R87, R90). -/
  | drop (b : Byte) (row : RxRow)
      (hst : (s.state = 1#3 ∧ b ≠ 0xCA#8 ∧ b ≠ 0xF0#8 ∧ row = .sp2Other) ∨
        (s.state = 3#3 ∧ b ≠ 0x53#8 ∧ row = .spo1Other) ∨ (s.state = 4#3 ∧ b ≠ 0x0F#8 ∧ row = .spo2Other)) :
      RxMove s b ((s.setState 0#3).traced .framing row)
  /-- LENGTH declares an oversized frame (R84). -/
  | overflow (b : Byte) (hst : s.state = 2#3) (h3 : s.cursor = 3) (hbig : s.capacity < 7 + b.toNat) :
      RxMove s b (((s.stored b).setState 5#3).traced .overflow .rcOverflow)
  /-- TYPE, a LENGTH that fits, or a byte of DATA (R83). -/
  | content (b : Byte) (hst : s.state = 2#3) (hfit : s.cursor = 3 → 7 + b.toNat ≤ s.capacity)
      (hend : ¬ (4 ≤ s.cursor ∧ s.cursor = 4 + s.n)) : RxMove s b (s.stored b)
  /-- CHECKSUM, after which the postamble is expected (R85). -/
  | checksum (b : Byte) (hst : s.state = 2#3) (h4 : 4 ≤ s.cursor) (hend : s.cursor = 4 + s.n) :
      RxMove s b ((s.stored b).setState 3#3)
  /-- POSTAMBLE1 (R86). -/
  | postamble (hst : s.state = 3#3) : RxMove s 0x53#8 ((s.stored 0x53#8).setState 4#3)
  /-- POSTAMBLE2 of a frame whose checksum matches (R88, R93). -/
  | publish (hst : s.state = 4#3) (hsum : s.buf.read (4 + s.n) = checksumFn (s.buf.span 2 (2 + s.n))) :
      RxMove s 0x0F#8
        (((s.stored 0x0F#8).publish (s.buf.read 2) (s.buf.read 3) (s.buf.span 4 s.n)).setState 0#3)
  /-- POSTAMBLE2 of a frame whose checksum differs (R89). -/
  | mismatch (hst : s.state = 4#3) (hsum : s.buf.read (4 + s.n) ≠ checksumFn (s.buf.span 2 (2 + s.n))) :
      RxMove s 0x0F#8 (((s.stored 0x0F#8).traced .checksum .spo2Post2Bad).setState 0#3)

section
variable {s : State}

/-- What a receive step needs to answer: where CURSOR stands in each parse state, and that the declared frame fits. -/
structure Ready (s : State) : Prop where
  capacity : 7 ≤ s.capacity
  wf : s.buf.wf = true
  sp2 : s.state = 1#3 → s.cursor = 1
  rc : s.state = 2#3 → s.cursor + 3 ≤ s.capacity
  spo1 : s.state = 3#3 → s.cursor = 5 + s.n ∧ 7 + s.n ≤ s.capacity
  spo2 : s.state = 4#3 → s.cursor = 6 + s.n ∧ 7 + s.n ≤ s.capacity

theorem Inv.ready (hinv : Inv s) : Ready s where
  capacity := hinv.seven_le_capacity
  wf := hinv.buf_wf
  sp2 := hinv.cursor_of_sp2
  rc hst := (hinv.rc_fits hst).1
  spo1 := hinv.spo1_fits
  spo2 := hinv.spo2_fits

/-- A move is what the receive step does. -/
theorem RxMove.rxStep_eq {b : Byte} {t : State} (hmove : RxMove s b t) (hs : Ready s) : rxStep b s = .next t := by
  have hcap := hs.capacity
  have hstart : startFrame s = .next ((s.clearCursor.stored 0xF0#8).setState 1#3) := startFrame_of_pos (by omega)
  cases hmove with
  | discard _ hst hb =>
    obtain hst | hst := hst
    · rw [rxStep_sp1 b hst, if_neg hb, exec, execSp1Other]
    · rw [rxStep_bo b hst, if_neg hb, exec, execBoOther]
  | start hst =>
    obtain hst | hst := hst
    · rw [rxStep_sp1 _ hst, if_pos rfl]
      exact hstart
    · rw [rxStep_bo _ hst, if_pos rfl]
      exact hstart
  | restart hst => rw [rxStep_sp2 _ hst, if_neg (by decide), if_pos rfl, exec, execSp2Pre1, hstart, andThen_next]
  | preamble hst =>
    have hcur := hs.sp2 hst
    rw [rxStep_sp2 _ hst, if_pos rfl]
    exact andThen_store _ _ (by omega)
  | drop _ row hst =>
    obtain ⟨hst, hb₂, hb₁, rfl⟩ | ⟨hst, hb, rfl⟩ | ⟨hst, hb, rfl⟩ := hst
    · rw [rxStep_sp2 b hst, if_neg hb₂, if_neg hb₁]
      rfl
    · rw [rxStep_spo1 b hst, if_neg hb]
      rfl
    · rw [rxStep_spo2_other hst hb]
      rfl
  | overflow _ hst h3 hbig =>
    have hn := stored_n_of_eq b hs.wf h3
    rw [rxStep_rc b hst (by omega) (by omega), if_pos (by omega)]
    exact andThen_store _ _ (by omega)
  | content _ hst hfit hend =>
    have hroom := hs.rc hst
    have hn3 := stored_n_of_eq b hs.wf (s := s)
    have hn := stored_n_of_ne (s := s) b
    rw [rxStep_rc b hst (by omega) (by omega), if_neg (by omega), if_neg (by omega)]
    exact store_of_lt b (by omega)
  | checksum _ hst h4 hend =>
    have hroom := hs.rc hst
    have hn := stored_n_of_ne (s := s) b (by omega)
    rw [rxStep_rc b hst (by omega) (by omega), if_neg (by omega), if_pos (by omega)]
    exact andThen_store _ _ (by omega)
  | postamble hst =>
    obtain ⟨hcur, hfit⟩ := hs.spo1 hst
    rw [rxStep_spo1 _ hst, if_pos rfl]
    exact andThen_store _ _ (by omega)
  | publish hst hsum =>
    obtain ⟨hcur, hfit⟩ := hs.spo2 hst
    rw [rxStep_spo2_post2 hst hcur hfit, if_pos hsum, exec_spo2Post2Ok hcur hfit]
  | mismatch hst hsum =>
    obtain ⟨hcur, hfit⟩ := hs.spo2 hst
    rw [rxStep_spo2_post2 hst hcur hfit, if_neg hsum]
    exact andThen_store _ _ (by omega)

/-- From an invariant state there is a move for every byte. -/
theorem Inv.exists_rxMove (hinv : Inv s) (b : Byte) : ∃ t, RxMove s b t := by
  obtain hst | hst | hst | hst | hst | hst := hinv.state_cases
  · by_cases hb : b = 0xF0#8
    · subst hb
      exact ⟨_, .start (.inl hst)⟩
    · exact ⟨s, .discard b (.inl hst) hb⟩
  · by_cases hb₂ : b = 0xCA#8
    · subst hb₂
      exact ⟨_, .preamble hst⟩
    by_cases hb₁ : b = 0xF0#8
    · subst hb₁
      exact ⟨_, .restart hst⟩
    · exact ⟨_, .drop b _ (.inl ⟨hst, hb₂, hb₁, rfl⟩)⟩
  · by_cases hover : s.cursor = 3 ∧ s.capacity < 7 + b.toNat
    · exact ⟨_, .overflow b hst hover.1 hover.2⟩
    by_cases hend : 4 ≤ s.cursor ∧ s.cursor = 4 + s.n
    · exact ⟨_, .checksum b hst hend.1 hend.2⟩
    · exact ⟨_, .content b hst (by omega) hend⟩
  · by_cases hb : b = 0x53#8
    · subst hb
      exact ⟨_, .postamble hst⟩
    · exact ⟨_, .drop b _ (.inr (.inl ⟨hst, hb, rfl⟩))⟩
  · by_cases hb : b = 0x0F#8
    · by_cases hsum : s.buf.read (4 + s.n) = checksumFn (s.buf.span 2 (2 + s.n))
      · subst hb
        exact ⟨_, .publish hst hsum⟩
      · subst hb
        exact ⟨_, .mismatch hst hsum⟩
    · exact ⟨_, .drop b _ (.inr (.inr ⟨hst, hb, rfl⟩))⟩
  · by_cases hb : b = 0xF0#8
    · subst hb
      exact ⟨_, .start (.inr hst)⟩
    · exact ⟨s, .discard b (.inr hst) hb⟩

/-- From an invariant state every receive step answers, by one of the moves. -/
theorem Inv.exists_rxStep (hinv : Inv s) (b : Byte) : ∃ t, rxStep b s = .next t ∧ RxMove s b t := by
  obtain ⟨t, hmove⟩ := hinv.exists_rxMove b
  exact ⟨t, hmove.rxStep_eq hinv.ready, hmove⟩

theorem Inv.rxMove_of_next {b : Byte} {t : State} (hinv : Inv s) (h : rxStep b s = .next t) : RxMove s b t := by
  obtain ⟨u, hu, hmove⟩ := hinv.exists_rxStep b
  obtain rfl : t = u := by simpa [h] using hu
  exact hmove

/-! ### The invariant in each parse state -/

theorem Inv.of_hunting (hform : InvForm s) (h1 : Inv1 s) (hst : Hunting s) (hv : s.pktValid = false) : Inv s := by
  refine ⟨hform, h1, ?_⟩
  obtain hst | hst := hst <;>
    simp [hst, hv, Inv2, Inv3, Inv4, Config.sp1, Config.bo, Config.sp2, Config.rc, Config.spo1, Config.spo2]

theorem Inv.of_sp2 (hform : InvForm s) (h1 : Inv1 s) (hst : s.state = 1#3) (hv : s.pktValid = false)
    (h2 : s.cursor = 1 ∧ s.buf.read 0 = 0xF0#8) : Inv s := by
  refine ⟨hform, h1, fun _ => h2, ?_⟩
  simp [hst, hv, Inv4, Config.rc, Config.spo1, Config.spo2]

theorem Inv.of_rc (hform : InvForm s) (h1 : Inv1 s) (hst : s.state = 2#3) (hv : s.pktValid = false)
    (h3 : s.buf.read 0 = 0xF0#8 ∧ s.buf.read 1 = 0xCA#8 ∧
      ((s.cursor = 2 ∨ s.cursor = 3) ∨ (4 ≤ s.cursor ∧ s.cursor ≤ 4 + s.n ∧ 7 + s.n ≤ s.capacity))) : Inv s := by
  refine ⟨hform, h1, ?_, fun _ => h3, ?_⟩ <;> simp [hst, hv, Inv4, Config.sp2, Config.spo1, Config.spo2]

theorem Inv.of_spo1 (hform : InvForm s) (h1 : Inv1 s) (hst : s.state = 3#3) (hv : s.pktValid = false)
    (h4 : s.cursor = 5 + s.n ∧ 7 + s.n ≤ s.capacity ∧ s.buf.read 0 = 0xF0#8 ∧ s.buf.read 1 = 0xCA#8) : Inv s := by
  refine ⟨hform, h1, ?_, ?_, ⟨fun _ => h4, ?_⟩, ?_⟩ <;> simp [hst, hv, Config.sp2, Config.rc, Config.spo2]

theorem Inv.of_spo2 (hform : InvForm s) (h1 : Inv1 s) (hst : s.state = 4#3) (hv : s.pktValid = false)
    (h4 : s.cursor = 6 + s.n ∧ s.buf.read (5 + s.n) = 0x53#8 ∧ 7 + s.n ≤ s.capacity ∧
      s.buf.read 0 = 0xF0#8 ∧ s.buf.read 1 = 0xCA#8) : Inv s := by
  refine ⟨hform, h1, ?_, ?_, ⟨?_, fun _ => h4⟩, ?_⟩ <;> simp [hst, hv, Config.sp2, Config.rc, Config.spo1]

theorem Inv.of_sp1 (hform : InvForm s) (h1 : Inv1 s) (hst : s.state = 0#3) (h5 : Inv5 s) : Inv s := by
  refine ⟨hform, h1, ?_, ?_, ?_, h5, ?_⟩ <;> simp [hst, Inv4, Config.sp2, Config.rc, Config.spo1, Config.spo2]

/-- The Packet that is valid ends at CURSOR. -/
theorem Inv.cursor_of_valid (hinv : Inv s) (hv : s.pktValid = true) : s.cursor = 7 + s.pktLen.toNat := by
  obtain ⟨_, _, _, _, _, inv5, _⟩ := hinv
  obtain ⟨_, hcur, _⟩ := inv5 hv
  exact hcur

theorem Inv.form (hinv : Inv s) : InvForm s := hinv.1

theorem Inv.inv1 (hinv : Inv s) : Inv1 s := hinv.2.1

/-- After the F0 of a frame, index 0 holds it. -/
theorem Inv.read_zero (hinv : Inv s) (hst : s.state = 1#3 ∨ s.state = 2#3 ∨ s.state = 3#3 ∨ s.state = 4#3) :
    s.buf.read 0 = 0xF0#8 := by
  obtain ⟨_, _, inv2, inv3, ⟨inv4, inv4'⟩, _⟩ := hinv
  obtain hst | hst | hst | hst := hst
  · obtain ⟨_, h0⟩ := inv2 hst
    exact h0
  · obtain ⟨h0, _⟩ := inv3 hst
    exact h0
  · obtain ⟨_, _, h0, _⟩ := inv4 hst
    exact h0
  · obtain ⟨_, _, _, h0, _⟩ := inv4' hst
    exact h0

/-- After the preamble of a frame, index 1 holds its second byte. -/
theorem Inv.read_one (hinv : Inv s) (hst : s.state = 2#3 ∨ s.state = 3#3 ∨ s.state = 4#3) :
    s.buf.read 1 = 0xCA#8 := by
  obtain ⟨_, _, _, inv3, ⟨inv4, inv4'⟩, _⟩ := hinv
  obtain hst | hst | hst := hst
  · obtain ⟨_, h1, _⟩ := inv3 hst
    exact h1
  · obtain ⟨_, _, _, h1⟩ := inv4 hst
    exact h1
  · obtain ⟨_, _, _, _, h1⟩ := inv4' hst
    exact h1

theorem Inv.read_postamble1 (hinv : Inv s) (hst : s.state = 4#3) : s.buf.read (5 + s.n) = 0x53#8 := by
  obtain ⟨_, _, _, _, ⟨_, inv4⟩, _⟩ := hinv
  obtain ⟨_, hpost, _⟩ := inv4 hst
  exact hpost

/-- Where CURSOR stands in ReceiveCommand. -/
theorem Inv.rc_cursor (hinv : Inv s) (hst : s.state = 2#3) :
    (s.cursor = 2 ∨ s.cursor = 3) ∨ (4 ≤ s.cursor ∧ s.cursor ≤ 4 + s.n ∧ 7 + s.n ≤ s.capacity) := by
  obtain ⟨_, _, _, inv3, _⟩ := hinv
  obtain ⟨_, _, hcur⟩ := inv3 hst
  exact hcur

/-! ### The moves keep the invariant -/

theorem InvForm.stored (h : InvForm s) (b : Byte) (hcur : s.cursor < s.capacity) : InvForm (s.stored b) := by
  obtain ⟨hcap, hwf, hbelow⟩ := h
  exact ⟨hcap, Memory.wf_write hwf _ _, Memory.below_write hbelow hcur _⟩

theorem stored_read_self (b : Byte) (hwf : s.buf.wf = true) : (s.stored b).buf.read s.cursor = b :=
  Memory.read_write_eq hwf _ _

/-- The start of a frame leaves SearchPreamble2 with the F0 at index 0. -/
theorem Inv.startFrame (hinv : Inv s) : Inv ((s.clearCursor.stored 0xF0#8).setState 1#3) := by
  have hcap := hinv.seven_le_capacity
  have hclear : InvForm s.clearCursor := hinv.form
  refine .of_sp2 (hclear.stored _ (by simp; omega)) ⟨rfl, ?_⟩ rfl rfl ⟨rfl, stored_read_self _ hinv.buf_wf⟩
  show 0 + 1 ≤ s.capacity
  omega

end

/-! ### The frame in the buffer -/

theorem Memory.span_two_add (m : Memory) (n : Nat) : m.span 2 (2 + n) = m.read 2 :: m.read 3 :: m.span 4 n := by
  rw [Memory.span_append]
  rfl

/-- The bytes of a frame of `n` data bytes lie in the buffer one after another. -/
theorem Memory.span_frame (m : Memory) (n : Nat) :
    m.span 0 (7 + n) =
      m.read 0 :: m.read 1 :: m.read 2 :: m.read 3 ::
        (m.span 4 n ++ [m.read (4 + n), m.read (5 + n), m.read (6 + n)]) := by
  rw [show 7 + n = 4 + (n + 3) by omega, Memory.span_append, Memory.span_append, Nat.zero_add,
    show 5 + n = 4 + n + 1 by omega, show 6 + n = 4 + n + 1 + 1 by omega]
  rfl

theorem checksumFn_eq_of_frame {m : Memory} {n : Nat} (h : m.read (4 + n) = checksumFn (m.span 2 (2 + n))) :
    m.read (4 + n) = checksumFn (m.read 2 :: m.read 3 :: m.span 4 n) := by
  rw [h, Memory.span_two_add]

/-- A frame in the buffer whose framing bytes and checksum are right is well-formed (42_codec R109). -/
theorem wellFormedFrame_span {m : Memory} {cap n : Nat} (hn : n = (m.read 3).toNat) (hfit : 7 + n ≤ cap)
    (h0 : m.read 0 = 0xF0#8) (h1 : m.read 1 = 0xCA#8) (hp : m.read (5 + n) = 0x53#8) (hq : m.read (6 + n) = 0x0F#8)
    (hsum : m.read (4 + n) = checksumFn (m.span 2 (2 + n))) : wellFormedFrame cap (m.span 0 (7 + n)) = true := by
  rw [wellFormedFrame, Memory.span_frame, h0, h1, hp, hq,
    decodeFn_of_declaredLength _ _ _ _ (by rw [Memory.length_span, hn]) (hn ▸ hfit), if_neg (by simp),
    if_neg (not_not.mpr (checksumFn_eq_of_frame hsum)), DecodeResult.isOk]

section
variable {s : State}

/-- The published frame is the current Packet, and its view lies in the buffer (10_state R33 INV5). -/
theorem Inv.publish (hinv : Inv s) (hst : s.state = 4#3)
    (hsum : s.buf.read (4 + s.n) = checksumFn (s.buf.span 2 (2 + s.n))) :
    Inv (((s.stored 0x0F#8).publish (s.buf.read 2) (s.buf.read 3) (s.buf.span 4 s.n)).setState 0#3) := by
  obtain ⟨hcur, hfit⟩ := hinv.spo2_fits hst
  have hread (i : Nat) (hi : i < 6 + s.n) : (s.stored 0x0F#8).buf.read i = s.buf.read i :=
    stored_read_of_ne _ (by omega)
  have hn : (s.stored 0x0F#8).n = s.n := stored_n_of_ne _ (by omega)
  refine .of_sp1 (hinv.form.stored _ (by omega)) ⟨rfl, ?_⟩ rfl fun _ =>
    ⟨rfl, ?_, ?_, hread 2 (by omega), hread 3 (by omega), ?_⟩
  · show s.cursor + 1 ≤ s.capacity
    omega
  · show s.cursor + 1 = 7 + s.n
    omega
  · refine wellFormedFrame_span (n := s.n) hn.symm hfit ?_ ?_ ?_ (hcur ▸ stored_read_self _ hinv.buf_wf) ?_
    · exact (hread 0 (by omega)).trans (hinv.read_zero (by simp [hst]))
    · exact (hread 1 (by omega)).trans (hinv.read_one (by simp [hst]))
    · exact (hread _ (by omega)).trans (hinv.read_postamble1 hst)
    · exact (hread _ (by omega)).trans (hsum.trans (by rw [← stored_span_of_le 0x0F#8 (by omega)]; rfl))
  · simp only [State.setState_publog, State.publish_publog, List.getLast?_append, List.getLast?_singleton]
    exact congrArg some (congrArg (Packet.mk _ _) (stored_span_of_le (k := s.n) _ (by omega)).symm)

/-- Every move of the receive machine keeps the invariant (10_state R33). -/
theorem RxMove.inv {b : Byte} {t : State} (hmove : RxMove s b t) (hinv : Inv s) : Inv t := by
  have hcap := hinv.seven_le_capacity
  have hwf := hinv.buf_wf
  have hkeep {i : Nat} (b : Byte) (hi : i < s.cursor) : (s.stored b).buf.read i = s.buf.read i :=
    stored_read_of_ne b (by omega)
  cases hmove with
  | discard => exact hinv
  | start => exact hinv.startFrame
  | restart => exact hinv.startFrame
  | preamble hst =>
    have hcur := hinv.cursor_of_sp2 hst
    have hroom : s.cursor < s.capacity := by omega
    refine .of_rc (hinv.form.stored _ hroom) ⟨rfl, hroom⟩ rfl rfl ⟨?_, ?_, .inl (.inl (congrArg (· + 1) hcur))⟩
    · exact (hkeep _ (by omega)).trans (hinv.read_zero (.inl hst))
    · exact hcur ▸ stored_read_self _ hwf
  | drop _ row hst =>
    refine .of_hunting hinv.form hinv.inv1 (.inl rfl) (hinv.pktValid_eq_false ?_)
    obtain ⟨hst, _⟩ | ⟨hst, _⟩ | ⟨hst, _⟩ := hst <;> simp [hst]
  | overflow _ hst h3 =>
    have hroom : s.cursor < s.capacity := by omega
    exact .of_hunting (hinv.form.stored _ hroom) ⟨rfl, hroom⟩ (.inr rfl) rfl
  | content _ hst hfit hend =>
    have hroom : s.cursor < s.capacity := by have := (hinv.rc_fits hst).1; omega
    have hcur := hinv.rc_cursor hst
    refine .of_rc (hinv.form.stored _ hroom) ⟨rfl, hroom⟩ hst rfl ⟨?_, ?_, ?_⟩
    · exact (hkeep _ (by omega)).trans (hinv.read_zero (.inr (.inl hst)))
    · exact (hkeep _ (by omega)).trans (hinv.read_one (.inl hst))
    · rw [State.stored_cursor, State.stored_capacity]
      by_cases h3 : s.cursor = 3
      · rw [stored_n_of_eq b hwf h3]
        have := hfit h3
        omega
      · rw [stored_n_of_ne b h3]
        omega
  | checksum _ hst h4 hend =>
    have hfit := (hinv.rc_fits hst).2 h4
    have hroom : s.cursor < s.capacity := by omega
    have hn : (s.stored b).n = s.n := stored_n_of_ne b (by omega)
    refine .of_spo1 (hinv.form.stored _ hroom) ⟨rfl, hroom⟩ rfl rfl ⟨?_, ?_, ?_, ?_⟩
    · show s.cursor + 1 = 5 + (s.stored b).n
      omega
    · show 7 + (s.stored b).n ≤ s.capacity
      omega
    · exact (hkeep _ (by omega)).trans (hinv.read_zero (.inr (.inl hst)))
    · exact (hkeep _ (by omega)).trans (hinv.read_one (.inl hst))
  | postamble hst =>
    obtain ⟨hcur, hfit⟩ := hinv.spo1_fits hst
    have hroom : s.cursor < s.capacity := by omega
    have hn : (s.stored 0x53#8).n = s.n := stored_n_of_ne _ (by omega)
    refine .of_spo2 (hinv.form.stored _ hroom) ⟨rfl, hroom⟩ rfl rfl ⟨?_, ?_, ?_, ?_, ?_⟩
    · show s.cursor + 1 = 6 + (s.stored 0x53#8).n
      omega
    · show (s.stored 0x53#8).buf.read (5 + (s.stored 0x53#8).n) = 0x53#8
      rw [hn, ← hcur, stored_read_self _ hwf]
    · show 7 + (s.stored 0x53#8).n ≤ s.capacity
      omega
    · exact (hkeep _ (by omega)).trans (hinv.read_zero (.inr (.inr (.inl hst))))
    · exact (hkeep _ (by omega)).trans (hinv.read_one (.inr (.inl hst)))
  | publish hst hsum => exact hinv.publish hst hsum
  | mismatch hst =>
    obtain ⟨hcur, hfit⟩ := hinv.spo2_fits hst
    have hroom : s.cursor < s.capacity := by omega
    exact .of_hunting (hinv.form.stored _ hroom) ⟨rfl, hroom⟩ (.inl rfl) rfl

end

end Sys2Proof.Machine
end

section
/-! PROOF. The invariant along every step, what an invariant state can stop with, and the logs (10_state R29 to R33,
60_exceptions R124 to R126). -/

namespace Sys2Proof.Machine

/-! ### Power-on and every step -/

/-- RESET and power-on leave a machine that hunts with no Packet. -/
theorem Inv.of_cleared {s : State} (hform : InvForm s) (hst : s.state = 0#3) (hcur : s.cursor = 0)
    (hused : s.usedLen = 0) (hv : s.pktValid = false) : Inv s :=
  .of_hunting hform ⟨hcur.trans hused.symm, by omega⟩ (.inl hst) hv

/-- Settles O53: power-on is a hunting machine whatever the buffer holds. -/
theorem powerOnMeetsTheInvariants : Obligations.PowerOnMeetsTheInvariants :=
  have hpower (cap : Nat) (m : Memory) (hcap : 7 ≤ cap) (hwf : m.wf = true) (hbelow : m.below cap = true) :
      Inv (State.powerOn cap m) := .of_cleared ⟨hcap, hwf, hbelow⟩ rfl rfl rfl rfl
  ⟨hpower Config.referenceCapacity [] (by decide) rfl rfl, hpower⟩

section
variable {s t : State}

/-- The invariant does not look at the queue or at what is still to arrive. -/
theorem Inv.of_transportMove (hinv : Inv s) (h : transportMove s = .next t) : Inv t := by
  obtain ⟨_, _, rfl⟩ | ⟨_, _, _, rfl⟩ := transportMove_next h <;> exact hinv

theorem Inv.of_rxStep {b : Byte} (hinv : Inv s) (h : rxStep b s = .next t) : Inv t :=
  (hinv.rxMove_of_next h).inv hinv

theorem Inv.of_drain {k : Nat} (hinv : Inv s) (h : drain k s = .next t) : Inv t :=
  drain_induct (fun _ _ hs => hs) (fun _ _ _ hs => hs.of_rxStep) (fun _ _ hs => hs.of_transportMove) hinv h

theorem Inv.of_exec_reset (hinv : Inv s) (h : exec .reset s = .next t) : Inv t := by
  obtain rfl := finish_eq_next.mp h
  exact .of_cleared hinv.form rfl rfl rfl rfl

theorem Inv.of_exec_host {i : Instr} (hinv : Inv s) (hrow : i.isRxRow = false) (h : exec i s = .next t) : Inv t := by
  by_cases hpi : i = .processInput
  · subst hpi
    obtain ⟨u, hu, rfl⟩ := execProcessInput_next h
    exact (hinv.of_drain hu :)
  · obtain ⟨rfl, _⟩ | ⟨_, rfl⟩ | ⟨_, _, rfl⟩ := exec_host_next hrow hpi h
    · exact hinv.of_exec_reset h
    · exact hinv
    · exact hinv

theorem Inv.of_step (hinv : Inv s) (h : step s = .next t) : Inv t := by
  obtain ⟨_, ⟨_, rfl⟩ | ⟨_, _, _, _, hdec, hexec⟩ | ⟨_, _, _, rfl⟩⟩ := moveUnlessMarked_next h
  · exact hinv
  · exact Inv.of_exec_host (s := s.moved) hinv (decodeHost_isRxRow hdec) hexec
  · exact hinv

end

/-- Settles O54: by the moves of the receive machine, which PROCESS_INPUT repeats, and by RESET; no other step writes
the block. -/
theorem everyStepKeepsTheInvariants : Obligations.EveryStepKeepsTheInvariants :=
  fun _ _ hinv h => hinv.of_step h

/-! ### What PROCESS_INPUT can stop with -/

section
variable {s t : State}

theorem transportMove_cases (s : State) :
    (∃ t, transportMove s = .next t ∧ t.endless = s.endless) ∨
      (s.endless = true ∧ transportMove s = .fault .neverReturns) := by
  cases ha : s.arrivals with
  | cons bs rest => exact .inl ⟨_, transportMove_of_cons ha, rfl⟩
  | nil =>
    cases he : s.endless with
    | true => exact .inr ⟨rfl, transportMove_of_endless ha he⟩
    | false => exact .inl ⟨s, transportMove_of_nil ha he, he⟩

/-- From an invariant state the loop answers, or never returns. -/
theorem Inv.drain_cases (hinv : Inv s) (k : Nat) :
    (∃ t, drain k s = .next t) ∨ (s.endless = true ∧ drain k s = .fault .neverReturns) := by
  induction k generalizing s with
  | zero => exact .inl ⟨s, rfl⟩
  | succ k ih =>
    cases hq : s.rxq with
    | nil => exact .inl ⟨s, drain_empty hq⟩
    | cons b rest =>
      have hread : Inv (s.withRxq rest) := hinv
      obtain ⟨u, hu, hmove⟩ := hread.exists_rxStep b
      obtain ⟨_, _, _, hue⟩ := rxStep_line hu
      have hloop : drain (k + 1) s = andThen (transportMove u) (drain k) := by
        rw [drain_cons hq]
        exact congrArg (andThen · fun v => andThen (transportMove v) (drain k)) hu
      rw [hloop]
      obtain ⟨v, hv, hve⟩ | ⟨he, hv⟩ := transportMove_cases u
      · rw [hv, andThen_next]
        have he : v.endless = s.endless := hve.trans hue
        exact he ▸ ih ((hmove.inv hread).of_transportMove hv)
      · exact .inr ⟨hue.symm.trans he, by rw [hv, andThen_fault]⟩

theorem drain_rxq {k : Nat} (hk : s.pendingBytes ≤ k) (h : drain k s = .next t) : t.rxq = [] := by
  obtain ⟨n, u, _, hu, rfl⟩ := drain_next hk h
  exact (feed_line hu).1

/-- Where the transport never stops and nothing else is to arrive, the first byte read keeps the call from returning. -/
theorem Inv.exec_processInput_endless (hinv : Inv s) (he : s.endless = true) (ha : s.arrivals = []) (hq : s.rxq ≠ []) :
    exec .processInput s = .fault .neverReturns := by
  obtain ⟨b, rest, hq⟩ := List.exists_cons_of_ne_nil hq
  have hread : Inv (s.withRxq rest) := hinv
  obtain ⟨u, hu, _⟩ := hread.exists_rxStep b
  obtain ⟨_, hua, _, hue⟩ := rxStep_line hu
  have hstuck : transportMove u = .fault .neverReturns := transportMove_of_endless (hua.trans ha) (hue.trans he)
  have hfuel : s.pendingBytes = rest.length + s.arrivals.flatten.length + 1 := by
    rw [State.pendingBytes, hq, List.length_cons]
    omega
  have hu : rxStep b { s with rxq := rest } = .next u := hu
  rw [exec, execProcessInput, hfuel, drain_cons hq, hu, andThen_next, hstuck, andThen_fault, andThen_fault]

theorem tick_of_neverReturns (h : step s = .fault .neverReturns) : tick s = s := by
  rw [tick, h, settle, ite_self]

end

/-- Settles O25: the loop reads all of RXQ, and from an invariant state nothing but an endless transport stops it. -/
theorem processInputDrainsTheQueue : Obligations.ProcessInputDrainsTheQueue := by
  intro s
  refine ⟨rfl, fun hinv he => ?_, fun hq => ?_, fun hinv he ha hq => ?_⟩
  · obtain ⟨t, ht⟩ | ⟨he', _⟩ := hinv.drain_cases s.pendingBytes
    · exact ⟨t.returns .unit, by rw [exec, execProcessInput, ht, andThen_next, finish], (drain_rxq le_rfl ht :), rfl⟩
    · simp [he] at he'
  · rw [exec, execProcessInput, drain_empty hq, andThen_next]
    rfl
  · exact ⟨hinv.exec_processInput_endless he ha hq, fun _ => tick_of_neverReturns⟩

/-! ### What an invariant state can stop with -/

/-- The outcomes of an operation on a state that meets the invariant: an answer, or a broken contract of the host, or a
call that never returns (60_exceptions R124, R126). -/
def ContractOutcome (s : State) (o : Host.Outcome State Fault Refusal) : Prop :=
  (∃ t, o = .next t) ∨ (∃ w, o = .fault (.noPacket w)) ∨ (∃ i, o = .fault (.viewIndex i s.pktLen)) ∨
    (s.endless = true ∧ o = .fault .neverReturns) ∨ (∃ w, o = .refused (.reservedOp w)) ∨
    (∃ w, o = .refused (.nonzeroArg w)) ∨ (∃ w len k, o = .refused (.operand w len k))

section
variable {s : State}

theorem ContractOutcome.next (t : State) : ContractOutcome s (.next t) := .inl ⟨t, rfl⟩

theorem ContractOutcome.of_needPacket (w : OpWord) {f : State → Host.Outcome State Fault Refusal}
    (h : s.pktValid = true → ContractOutcome s (f s)) : ContractOutcome s (andThen (needPacket w s) f) := by
  cases hv : s.pktValid with
  | true =>
    rw [needPacket_eq_next.mpr ⟨hv, rfl⟩]
    exact h hv
  | false =>
    rw [andThen_needPacket_of_invalid w f hv]
    exact .inr (.inl ⟨w, rfl⟩)

theorem sendFrame_answers (t : Byte) (data : List Byte) : ∃ u, sendFrame t data s = .next u := by
  cases h : encodeFn checksumFn s.capacity t data with
  | ok f => exact ⟨_, sendFrame_of_ok h⟩
  | rejected => exact ⟨_, sendFrame_of_rejected h⟩

/-- With `len(DATA) ≠ LEN` a SEND operation is refused before anything else (60_exceptions R126). -/
theorem sendGeneral_of_ne (w : OpWord) (t : Byte) {len : Byte} {data : List Byte} (h : data.length ≠ len.toNat) :
    sendGeneral w t len data s = .refused (.operand w len data.length) := by
  rw [sendGeneral, sendOperands, if_neg h, andThen_refused]

theorem ContractOutcome.of_sendGeneral (w : OpWord) (t len : Byte) (data : List Byte) :
    ContractOutcome s (sendGeneral w t len data s) := by
  by_cases h : data.length = len.toNat
  · rw [sendGeneral_of_length w h]
    exact .inl (sendFrame_answers t data)
  · exact .inr (.inr (.inr (.inr (.inr (.inr ⟨w, len, _, sendGeneral_of_ne w t h⟩)))))

/-- What a host operation can do from an invariant state. -/
theorem Inv.exec_host_outcome (hinv : Inv s) {i : Instr} (hrow : i.isRxRow = false) : ContractOutcome s (exec i s) := by
  cases i with
  | processInput =>
    obtain ⟨t, ht⟩ | ⟨he, hstop⟩ := hinv.drain_cases s.pendingBytes
    · exact .inl ⟨t.returns .unit, by rw [exec, execProcessInput, ht, andThen_next, finish]⟩
    · exact .inr (.inr (.inr (.inl ⟨he, by rw [exec, execProcessInput, hstop, andThen_fault]⟩)))
  | reset | getState | checksum | encodeFrame | decodeFrame | hasPacket => exact .next _
  | getPacket | pktHasData => exact .of_needPacket _ fun _ => .next _
  | pktReadData i =>
    refine .of_needPacket _ fun hv => ?_
    by_cases hi : s.pktLen.toNat ≤ i.toNat
    · exact .inr (.inr (.inl ⟨i, by rw [viewIndex_of_ge hi, andThen_fault]⟩))
    · have hfit := hinv.view_fits hv
      rw [viewIndex_eq_next.mpr ⟨not_le.mp hi, rfl⟩, andThen_next, bufRead_of_lt (by omega), andThen_next]
      exact .next _
  | sendPacket0 t => exact .inl (exec_sendPacket0 t s ▸ sendFrame_answers t [])
  | sendPacket1 t d => exact .inl (exec_sendPacket1 t d s ▸ sendFrame_answers t [d])
  | sendPacket => exact .of_sendGeneral _ _ _ _
  | reservedD | reservedE | reservedF => exact .inr (.inr (.inr (.inr (.inl ⟨_, rfl⟩))))
  | sp1Pre1 | sp1Other | sp2Pre2 | sp2Pre1 | sp2Other | rcStore | rcOverflow | rcEnd | spo1Post1 | spo1Other
  | spo2Post2Ok | spo2Post2Bad | spo2Other | boPre1 | boOther | illegalState => cases hrow

theorem step_of_unmarked (h : Unmarked s) : step s = move s := by
  rw [step, moveUnlessMarked, h.1, h.2]

theorem issue_of_ok {c : HostCall} {i : Instr} (h : decodeHost c = .ok i) : issue c s = exec i s := by
  rw [issue, h]

theorem issue_of_nonzeroArg {c : HostCall} {w : OpWord} (h : decodeHost c = .error (.nonzeroArg w)) :
    issue c s = .refused (.nonzeroArg w) := by
  rw [issue, h]

end

/-- Settles O55: no receive step faults in an invariant state, so what stops a step is its host call. -/
theorem onlyHostContractStops : Obligations.OnlyHostContractStops := by
  intro s hinv hmark
  change ContractOutcome s (step s)
  rw [step_of_unmarked hmark, move]
  split
  · exact .next s
  next c rest _ =>
    match hdec : decodeHost c with
    | .ok i =>
      rw [issue_of_ok hdec]
      exact Inv.exec_host_outcome (s := s.moved) hinv (decodeHost_isRxRow hdec)
    | .error (.nonzeroArg w) =>
      exact .inr (.inr (.inr (.inr (.inr (.inl ⟨w, issue_of_nonzeroArg hdec⟩)))))
  · exact .next _

/-! ### The logs -/

/-- The logs of `t` extend those of `s`, and what was published has its declared length and fits CAPACITY `cap`. -/
def LogsGrow (cap : Nat) (s t : State) : Prop :=
  s.txlog <+: t.txlog ∧ s.trace <+: t.trace ∧
    ∃ ps, t.publog = s.publog ++ ps ∧ ∀ p ∈ ps, p.data.length = p.length.toNat ∧ p.length.toNat ≤ cap - 7

section
variable {cap : Nat} {s t u : State}

theorem LogsGrow.of_same (htx : s.txlog <+: t.txlog) (htr : s.trace <+: t.trace) (hpub : t.publog = s.publog) :
    LogsGrow cap s t :=
  ⟨htx, htr, [], by rw [hpub, List.append_nil], nofun⟩

theorem LogsGrow.refl (cap : Nat) (s : State) : LogsGrow cap s s := .of_same List.prefix_rfl List.prefix_rfl rfl

theorem LogsGrow.trans (h : LogsGrow cap s t) (h' : LogsGrow cap t u) : LogsGrow cap s u := by
  obtain ⟨htx, htr, ps, hpub, hps⟩ := h
  obtain ⟨htx', htr', qs, hpub', hqs⟩ := h'
  refine ⟨htx.trans htx', htr.trans htr', ps ++ qs, by rw [hpub', hpub, List.append_assoc], fun p hp => ?_⟩
  obtain hp | hp := List.mem_append.mp hp
  · exact hps p hp
  · exact hqs p hp

/-- Only the move that publishes extends PUBLOG, by the frame in the buffer, which fits. -/
theorem RxMove.logsGrow {b : Byte} (hmove : RxMove s b t) (hinv : Inv s) : LogsGrow s.capacity s t := by
  cases hmove with
  | discard => exact .refl _ s
  | start | preamble | content | checksum | postamble => exact .of_same List.prefix_rfl List.prefix_rfl rfl
  | restart | drop | overflow | mismatch => exact .of_same List.prefix_rfl (List.prefix_append _ _) rfl
  | publish hst =>
    obtain ⟨_, hfit⟩ := hinv.spo2_fits hst
    refine ⟨List.prefix_rfl, List.prefix_rfl, [_], rfl, fun p hp => ?_⟩
    obtain rfl := List.mem_singleton.mp hp
    exact ⟨Memory.length_span _ _ _, show s.n ≤ s.capacity - 7 by omega⟩

theorem Inv.drain_logsGrow {k : Nat} (hinv : Inv s) (h : drain k s = .next t) : LogsGrow s.capacity s t := by
  have hloop : Inv t ∧ t.capacity = s.capacity ∧ LogsGrow s.capacity s t := by
    refine drain_induct (P := fun u => Inv u ∧ u.capacity = s.capacity ∧ LogsGrow s.capacity s u)
      (fun _ _ hu => hu) (fun b u v hu hv => ?_) (fun u v hu hv => ?_) ⟨hinv, rfl, .refl _ s⟩ h
    · obtain ⟨hu, hcap, hgrow⟩ := hu
      exact ⟨hu.of_rxStep hv, (rxStep_capacity hv).trans hcap,
        hgrow.trans (hcap ▸ (hu.rxMove_of_next hv).logsGrow hu)⟩
    · obtain ⟨hu, hcap, hgrow⟩ := hu
      refine ⟨hu.of_transportMove hv, (transportMove_capacity hv).trans hcap, ?_⟩
      obtain ⟨_, _, rfl⟩ | ⟨_, _, _, rfl⟩ := transportMove_next hv <;> exact hgrow
  exact hloop.2.2

theorem Inv.exec_host_logsGrow {i : Instr} (hinv : Inv s) (hrow : i.isRxRow = false) (h : exec i s = .next t) :
    LogsGrow s.capacity s t := by
  by_cases hpi : i = .processInput
  · subst hpi
    obtain ⟨u, hu, rfl⟩ := execProcessInput_next h
    exact (hinv.drain_logsGrow hu :)
  · obtain ⟨_, rfl⟩ | ⟨_, rfl⟩ | ⟨_, _, rfl⟩ := exec_host_next hrow hpi h
    · exact .of_same List.prefix_rfl List.prefix_rfl rfl
    · exact .of_same List.prefix_rfl List.prefix_rfl rfl
    · exact .of_same (List.prefix_append _ _) List.prefix_rfl rfl

end

/-- Settles O57: each move extends the logs, and extensions compose along the loop. -/
theorem logsOnlyGrow : Obligations.LogsOnlyGrow := by
  intro s t hinv h
  change LogsGrow s.capacity s t
  obtain ⟨_, ⟨_, rfl⟩ | ⟨_, _, _, _, hdec, hexec⟩ | ⟨_, _, _, rfl⟩⟩ := moveUnlessMarked_next h
  · exact .refl _ _
  · exact Inv.exec_host_logsGrow (s := s.moved) hinv (decodeHost_isRxRow hdec) hexec
  · exact .of_same List.prefix_rfl List.prefix_rfl rfl

end Sys2Proof.Machine
end

section
/-! PROOF. The step's dispatch and its stops, and what the host operations answer (30_encoding R69 to R72,
60_exceptions R124 to R127, 20_memory R46). -/

namespace Sys2Proof.Machine

/-! ### The dispatch of a step -/

section
variable {s : State} {c : HostCall} {rest : List Move}

theorem step_of_call (hmark : Unmarked s) (hs : s.script = .call c :: rest) : step s = issue c s.moved := by
  rw [step_of_unmarked hmark, move, hs]

theorem moved_of_cons {m : Move} (hs : s.script = m :: rest) : s.moved = { s with script := rest } := by
  rw [State.moved, hs, List.tail_cons]

/-- An operation whose ARG must be 0 and is not is no instruction (60_exceptions R126). -/
theorem needZeroArg_of_ne {w : OpWord} (i : Instr) (h : argOf w ≠ 0#8) : needZeroArg w i = .error (.nonzeroArg w) :=
  if_neg h

theorem decodeHost_of_nonzeroArg
    (hop : opOf c.word ∈ [0x0#4, 0x1#4, 0x2#4, 0x3#4, 0x4#4, 0x9#4, 0xB#4, 0xC#4]) (harg : argOf c.word ≠ 0#8) :
    decodeHost c = .error (.nonzeroArg c.word) := by
  simp only [List.mem_cons, List.not_mem_nil, or_false] at hop
  obtain h | h | h | h | h | h | h | h := hop <;> simp [decodeHost, h, needZeroArg_of_ne _ harg]

/-- The codes D to F are refused whatever their ARG, and record their word (30_encoding R72). -/
theorem issue_of_reserved (h : 0xD ≤ (opOf c.word).toNat) : issue c s = .refused (.reservedOp c.word) := by
  have hop : opOf c.word ∈ [0xD#4, 0xE#4, 0xF#4] := by
    generalize opOf c.word = op at h
    revert op
    decide
  simp only [List.mem_cons, List.not_mem_nil, or_false] at hop
  obtain hop | hop | hop := hop
  · rw [issue_of_ok (i := .reservedD (argOf c.word)) (by simp [decodeHost, hop]), exec, execReservedD, refuseReserved,
      ← hop, opWord_fields]
  · rw [issue_of_ok (i := .reservedE (argOf c.word)) (by simp [decodeHost, hop]), exec, execReservedE, refuseReserved,
      ← hop, opWord_fields]
  · rw [issue_of_ok (i := .reservedF (argOf c.word)) (by simp [decodeHost, hop]), exec, execReservedF, refuseReserved,
      ← hop, opWord_fields]

end

/-- Settles O5: the refusal of a reserved code, of a nonzero ARG, of a wrong LEN and of a read of an empty queue. -/
theorem theFourRefusals : Obligations.TheFourRefusals := by
  refine ⟨fun _ _ => ⟨rfl, rfl, rfl⟩, fun s c rest hmark hs => ⟨fun h => ?_, fun hop harg => ?_⟩,
    fun _ t _ _ h => sendGeneral_of_ne _ t h, fun _ hq => rxRead_nil hq⟩
  · rw [step_of_call hmark hs, issue_of_reserved h]
  · rw [step_of_call hmark hs, issue_of_nonzeroArg (decodeHost_of_nonzeroArg hop harg)]

/-- Settles O7: one clause for each form of the next move. -/
theorem stepRunsTheDecodedInstruction : Obligations.StepRunsTheDecodedInstruction := by
  refine ⟨fun s c rest i hmark hs hdec => ?_, fun s bs rest hmark hs => ?_, fun s hmark hs => ?_⟩
  · rw [step_of_call hmark hs, issue_of_ok hdec, moved_of_cons hs]
  · rw [step_of_unmarked hmark, move, hs, moved_of_cons hs]
    rfl
  · rw [step_of_unmarked hmark, move, hs]

/-! ### The marks -/

theorem marked_eq_false {s : State} : s.marked = false ↔ Unmarked s := by
  simp [State.marked, Unmarked]

theorem step_of_marked {s : State} (h : ¬ Unmarked s) (t : State) : step s ≠ .next t :=
  fun ht => h (moveUnlessMarked_next ht).1

theorem tick_of_marked {s : State} (h : ¬ Unmarked s) : tick s = s :=
  if_pos (by rwa [← Bool.not_eq_false, marked_eq_false])

theorem tick_of_fault {s : State} {f : Fault} (h : Unmarked s) (hf : step s = .fault f) (hne : f ≠ .neverReturns) :
    tick s = s.moved.markFault f := by
  cases f with
  | neverReturns => exact absurd rfl hne
  | noPacket | viewIndex | illegalState | bound => simp [tick, hf, settle, marked_eq_false.mpr h]

theorem tick_of_refused {s : State} {r : Refusal} (h : Unmarked s) (hr : step s = .refused r) :
    tick s = s.moved.markRefused r := by
  simp [tick, hr, settle, marked_eq_false.mpr h]

theorem tick_of_next {s t : State} (ht : step s = .next t) : tick s = t := by
  have hmark : Unmarked s := (moveUnlessMarked_next ht).1
  simp [tick, ht, settle, marked_eq_false.mpr hmark]

/-- Settles O56: the first stop sets its mark on the state before the operation, and a marked state takes no step. -/
theorem marksAreSetOnceAndStay : Obligations.MarksAreSetOnceAndStay := by
  refine fun s => ⟨fun hmark f hf hne => ?_, fun hmark r hr => ?_, fun h => ⟨step_of_marked h, tick_of_marked h⟩⟩
  · rw [tick_of_fault hmark hf hne, State.markFault, State.moved_faultMark, hmark.1]
    rfl
  · rw [tick_of_refused hmark hr, State.markRefused, State.moved_refusedMark, hmark.2]
    rfl

/-! ### What the operations answer -/

/-- Settles O32: `PKT_VALID = 1` is the one precondition of the packet operations, and below PKT_LEN the view lies in
the buffer. -/
theorem hasPacketTellsBeforehand : Obligations.HasPacketTellsBeforehand := by
  refine fun s => ⟨rfl, rfl, fun hinv h => ?_⟩
  have hv : s.pktValid = true := by
    have hresult := congrArg State.result (Host.Outcome.next.inj h)
    simpa using hresult
  have hfit := hinv.view_fits hv
  exact ⟨⟨_, execGetPacket_eq_next.mpr ⟨hv, rfl⟩⟩, ⟨_, execPktHasData_eq_next.mpr ⟨hv, rfl⟩⟩,
    fun i hi => ⟨_, execPktReadData_eq_next.mpr ⟨hv, hi, by omega, rfl⟩⟩⟩

/-- Settles O34: each of the eight leaves its result alone, and its result does not depend on the last one. -/
theorem queriesAndCodecChangeNothing : Obligations.QueriesAndCodecChangeNothing := by
  intro i s t hi h
  obtain rfl | rfl | rfl | rfl | ⟨k, rfl⟩ | ⟨bs, rfl⟩ | ⟨ty, d, rfl⟩ | ⟨bs, rfl⟩ := hi
  · obtain rfl := finish_eq_next.mp h
    exact ⟨rfl, rfl⟩
  · obtain rfl := finish_eq_next.mp h
    exact ⟨rfl, rfl⟩
  · obtain ⟨hv, rfl⟩ := execGetPacket_eq_next.mp h
    exact ⟨rfl, execGetPacket_eq_next.mpr ⟨hv, rfl⟩⟩
  · obtain ⟨hv, rfl⟩ := execPktHasData_eq_next.mp h
    exact ⟨rfl, execPktHasData_eq_next.mpr ⟨hv, rfl⟩⟩
  · obtain ⟨hv, hk, hcap, rfl⟩ := execPktReadData_eq_next.mp h
    exact ⟨rfl, execPktReadData_eq_next.mpr ⟨hv, hk, hcap, rfl⟩⟩
  all_goals
    obtain rfl := finish_eq_next.mp h
    exact ⟨rfl, rfl⟩

/-! ### CHECKSUM and SEND_PACKET -/

theorem sumBytes_eq_sum (bs : List Byte) : sumBytes bs = (bs.map BitVec.toNat).sum := by
  induction bs with
  | nil => rfl
  | cons b bs ih => rw [sumBytes, ih, List.map_cons, List.sum_cons]

/-- The operation word with OP = 9 and ARG = 0 is CHECKSUM (30_encoding R70). -/
theorem decodeHost_checksum (bs : List Byte) :
    decodeHost { word := opWord 0x9#4 0#8, list := bs } = .ok (.checksum bs) := by
  simp [decodeHost]

/-- Settles O36: the checksum is a sum, which does not depend on the order. -/
theorem checksumOperation : Obligations.ChecksumOperation := by
  refine fun bs s => ⟨decodeHost_checksum bs, rfl, ?_, rfl, fun cs hperm => ?_⟩
  · rw [checksumFn, BitVec.toNat_ofNat, sumBytes_eq_sum]
  · rw [checksumFn, checksumFn, sumBytes_eq_sum, sumBytes_eq_sum, (hperm.map _).sum_eq]

/-- An operation word with OP = 8 is SEND_PACKET of its ARG and the side operands (30_encoding R70). -/
theorem decodeHost_sendPacket (t len : Byte) (data : List Byte) :
    decodeHost { word := opWord 0x8#4 t, len := len, list := data } = .ok (.sendPacket t len data) := by
  simp [decodeHost]

/-- Settles O48: the length check comes first, and a LEN byte never passes the second test of ENCODE_FN. -/
theorem sendPacketWritesOneFrame : Obligations.SendPacketWritesOneFrame := by
  refine fun t len data s => ⟨decodeHost_sendPacket t len data, sendGeneral_of_ne _ t, fun hlen hbig => ?_,
    fun hlen hfit => ?_⟩
  · rw [exec_sendPacket t s hlen, sendFrame_of_rejected (encodeFn_of_tooLong t (.inl (hlen ▸ hbig)))]
    rfl
  · have hlt := len.isLt
    have hframe : encodeFn checksumFn s.capacity t data = .ok (frameOf checksumFn t len data) := by
      rw [encodeFn_of_fits t (by omega), hlen, BitVec.ofNat_toNat, BitVec.setWidth_eq]
    rw [exec_sendPacket t s hlen, sendFrame_of_ok hframe]
    rfl

end Sys2Proof.Machine
end

section
/-! PROOF. The codec's round trip, and the receive machine along a whole frame (42_codec R107 to R113, 40_receive R76 to
R93). -/

namespace Sys2Proof.Machine

/-! ### Frames as lists -/

theorem frameOf_eq (ck : List Byte → Byte) (t l : Byte) (d : List Byte) :
    frameOf ck t l d = 0xF0#8 :: 0xCA#8 :: t :: l :: (d ++ [ck (t :: l :: d), 0x53#8, 0x0F#8]) := by
  simp [frameOf, Config.preamble1, Config.preamble2, Config.postamble1, Config.postamble2]

/-- A list of its declared length is the data with the checksum and the two postamble bytes. -/
theorem exists_data_of_length {rest : List Byte} {n : Nat} (h : rest.length = 3 + n) :
    ∃ d c p q, d.length = n ∧ rest = d ++ [c, p, q] := by
  have htail : (rest.drop n).length = 3 := by rw [List.length_drop]; omega
  obtain ⟨c, p, q, htail⟩ := List.length_eq_three.mp htail
  exact ⟨rest.take n, c, p, q, by rw [List.length_take]; omega, by rw [← htail, List.take_append_drop]⟩

/-- DECODE_FN accepts only the frame of the packet it answers, and only one that fits (42_codec R109, R111). -/
theorem decodeFn_eq_ok {ck : List Byte → Byte} {cap : Nat} {f : List Byte} {p : Packet}
    (h : decodeFn ck cap f = .ok p) :
    p.data.length = p.length.toNat ∧ 7 + p.length.toNat ≤ cap ∧ f = frameOf ck p.type p.length p.data := by
  match f with
  | [] | [_] | [_, _] | [_, _, _] => cases h
  | x :: y :: t :: l :: rest =>
    by_cases hlen : 3 ≤ rest.length
    swap
    · rw [decodeFn_of_short (by simp only [List.length_cons]; omega)] at h
      cases h
    by_cases hpre : x ≠ 0xF0#8 ∨ y ≠ 0xCA#8
    · rw [decodeFn_of_preamble_ne (by simp only [List.length_cons]; omega) hpre] at h
      cases h
    obtain ⟨rfl, rfl⟩ : x = 0xF0#8 ∧ y = 0xCA#8 := by simpa using hpre
    by_cases hfit : cap < 7 + l.toNat
    · rw [decodeFn_preambled t l hlen, if_pos hfit] at h
      cases h
    by_cases hdecl : rest.length ≠ 3 + l.toNat
    · rw [decodeFn_preambled t l hlen, if_neg hfit, if_pos hdecl] at h
      cases h
    obtain ⟨d, c, b₁, b₂, hd, rfl⟩ := exists_data_of_length (not_not.mp hdecl)
    rw [decodeFn_of_declaredLength t c b₁ b₂ hd (not_lt.mp hfit)] at h
    split_ifs at h with hpost hsum
    obtain ⟨rfl, rfl⟩ : b₁ = 0x53#8 ∧ b₂ = 0x0F#8 := by simpa using hpost
    obtain rfl := not_not.mp hsum
    obtain rfl : (⟨t, l, d⟩ : Packet) = p := by simpa using h
    exact ⟨hd, not_lt.mp hfit, (frameOf_eq ck t l d).symm⟩

/-- Settles O40: DECODE_FN answers the packet of a frame, and only the frame of a packet is accepted. -/
theorem codecRoundTrip : Obligations.CodecRoundTrip := by
  refine fun ck cap hcap => ⟨fun t d hmax h255 => ?_, fun f p h => ?_⟩
  · have hok := encodeFn_of_fits (ck := ck) (cap := cap) t (d := d) (by omega)
    exact ⟨_, hok, decodeFn_of_encodeFn hcap hok⟩
  · obtain ⟨hlen, hfit, rfl⟩ := decodeFn_eq_ok h
    have hlt := p.length.isLt
    refine ⟨?_, hlen⟩
    rw [encodeFn_of_fits p.type (by omega), hlen, BitVec.ofNat_toNat, BitVec.setWidth_eq]

/-! ### Feeding in parts -/

/-- Feeding `bs` from `s` answers, with a state that has the property `P`. -/
def Feeds (bs : List Byte) (s : State) (P : State → Prop) : Prop := ∃ t, feed bs s = .next t ∧ P t

section
variable {s : State} {P Q : State → Prop}

theorem Feeds.nil (h : P s) : Feeds [] s P := ⟨s, rfl, h⟩

theorem Feeds.append {xs ys : List Byte} (hx : Feeds xs s P) (hy : ∀ t, P t → Feeds ys t Q) :
    Feeds (xs ++ ys) s Q := by
  obtain ⟨t, ht, hP⟩ := hx
  obtain ⟨u, hu, hQ⟩ := hy t hP
  exact ⟨u, by rw [feed_append, ht, andThen_next, hu], hQ⟩

theorem Feeds.mono {bs : List Byte} (h : Feeds bs s P) (hPQ : ∀ t, P t → Q t) : Feeds bs s Q := by
  obtain ⟨t, ht, hP⟩ := h
  exact ⟨t, ht, hPQ t hP⟩

theorem feed_singleton (b : Byte) (s : State) : feed [b] s = rxStep b s := by
  rw [feed_cons]
  cases rxStep b s <;> rfl

/-- Feeding one byte is one receive step. -/
theorem Feeds.of_rxStep {b : Byte} {t : State} (h : rxStep b s = .next t) (hP : P t) : Feeds [b] s P :=
  ⟨t, by rw [feed_singleton, h], hP⟩

theorem Feeds.cons {b : Byte} {bs : List Byte} (hb : Feeds [b] s P) (hbs : ∀ t, P t → Feeds bs t Q) :
    Feeds (b :: bs) s Q :=
  hb.append hbs

end

/-! ### The frame received so far -/

/-- The bytes of the frame received so far, `BUF[0 .. CURSOR)`. -/
def State.frame (s : State) : List Byte := s.buf.span 0 s.cursor

section
variable {s t u : State}

theorem State.length_frame (s : State) : s.frame.length = s.cursor := Memory.length_span _ _ _

theorem frame_stored (b : Byte) (hwf : s.buf.wf = true) : (s.stored b).frame = s.frame ++ [b] := by
  have hspan : (s.stored b).buf.span 0 s.cursor = s.buf.span 0 s.cursor := stored_span_of_le b (by omega)
  rw [State.frame, State.stored_cursor, Memory.span_append, hspan, Nat.zero_add, Memory.span_succ,
    stored_read_self b hwf, Memory.span_zero, State.frame]

/-- The machine searches for the start of a frame: it hunts, or has seen a first F0. -/
def Searching (s : State) : Prop := s.state = 0#3 ∨ s.state = 1#3 ∨ s.state = 5#3

/-- From `s` the machine has gone on to `t` with the frame `fr` received so far and nothing published. -/
structure Receiving (s : State) (st : StateCode) (fr : List Byte) (t : State) : Prop where
  inv : Inv t
  state : t.state = st
  frame : t.frame = fr
  publog : t.publog = s.publog
  capacity : t.capacity = s.capacity

/-- From `s` the machine has gone on to `t`, which searches for a frame, and nothing was published. -/
structure Resumed (s t : State) : Prop where
  inv : Inv t
  searching : Searching t
  publog : t.publog = s.publog
  capacity : t.capacity = s.capacity

/-- From `s` the machine has gone on to `t`, back in SearchPreamble1 with exactly the packet `p` published. -/
structure Delivered (s : State) (p : Packet) (t : State) : Prop where
  inv : Inv t
  state : t.state = 0#3
  publog : t.publog = s.publog ++ [p]
  capacity : t.capacity = s.capacity
  pktValid : t.pktValid = true
  pktType : t.pktType = p.type
  pktLen : t.pktLen = p.length

theorem Receiving.cursor {st : StateCode} {fr : List Byte} (h : Receiving s st fr t) : t.cursor = fr.length := by
  rw [← State.length_frame, h.frame]

/-- The bytes received so far stand in the buffer. -/
theorem Receiving.read {st : StateCode} {fr : List Byte} (h : Receiving s st fr t) {i : Nat} {b : Byte}
    (hi : fr[i]? = some b) : t.buf.read i = b := by
  have hlt : i < t.cursor := by
    rw [h.cursor]
    exact (List.getElem?_eq_some_iff.mp hi).1
  rw [← h.frame, State.frame, Memory.getElem?_span _ hlt, Nat.zero_add] at hi
  exact Option.some.inj hi

/-- A move that stores its byte adds it to the frame. -/
theorem Receiving.feeds_store {st st' : StateCode} {fr : List Byte} {b : Byte} (h : Receiving s st fr t)
    (hmove : RxMove t b ((t.stored b).setState st')) : Feeds [b] t (Receiving s st' (fr ++ [b])) :=
  .of_rxStep (hmove.rxStep_eq h.inv.ready)
    { inv := hmove.inv h.inv
      state := rfl
      frame := (frame_stored b h.inv.buf_wf).trans (by rw [h.frame])
      publog := h.publog
      capacity := h.capacity }

/-! ### The preamble and the head of a frame -/

/-- A searching machine starts a frame at F0. -/
theorem Inv.feeds_preamble1 (hinv : Inv s) (hs : Searching s) : Feeds [0xF0#8] s (Receiving s 1#3 [0xF0#8]) := by
  have hframe : (s.clearCursor.stored 0xF0#8).frame = [0xF0#8] := frame_stored (s := s.clearCursor) _ hinv.buf_wf
  obtain hst | hst | hst := hs
  · exact .of_rxStep (RxMove.start (.inl hst) |>.rxStep_eq hinv.ready) ⟨hinv.startFrame, rfl, hframe, rfl, rfl⟩
  · exact .of_rxStep ((RxMove.restart hst).rxStep_eq hinv.ready) ⟨hinv.startFrame, rfl, hframe, rfl, rfl⟩
  · exact .of_rxStep (RxMove.start (.inr hst) |>.rxStep_eq hinv.ready) ⟨hinv.startFrame, rfl, hframe, rfl, rfl⟩

theorem Receiving.feeds_content {fr : List Byte} {b : Byte} (h : Receiving s 2#3 fr t)
    (hfit : fr.length = 3 → 7 + b.toNat ≤ s.capacity) (hend : ¬ (4 ≤ fr.length ∧ fr.length = 4 + t.n)) :
    Feeds [b] t (Receiving s 2#3 (fr ++ [b])) := by
  have hself : (t.stored b).setState 2#3 = t.stored b := by
    rw [← h.state]
    rfl
  refine h.feeds_store (hself.symm ▸ .content b h.state ?_ ?_)
  · rwa [h.cursor, h.capacity]
  · rwa [h.cursor]

/-- The preamble and TYPE. -/
theorem Inv.feeds_type (hinv : Inv s) (hs : Searching s) (ty : Byte) :
    Feeds [0xF0#8, 0xCA#8, ty] s (Receiving s 2#3 [0xF0#8, 0xCA#8, ty]) :=
  .cons (hinv.feeds_preamble1 hs) fun _ h₁ =>
    .cons (h₁.feeds_store (.preamble h₁.state)) fun _ h₂ => h₂.feeds_content (by simp) (by simp)

/-- The head of a frame that fits: LENGTH is stored like TYPE. -/
theorem Inv.feeds_head (hinv : Inv s) (hs : Searching s) (ty : Byte) {l : Byte} (hfit : 7 + l.toNat ≤ s.capacity) :
    Feeds [0xF0#8, 0xCA#8, ty, l] s (Receiving s 2#3 [0xF0#8, 0xCA#8, ty, l]) :=
  (hinv.feeds_type hs ty).append (ys := [l]) fun _ h => h.feeds_content (fun _ => hfit) (by simp)

/-- The head of an oversized frame leaves the machine in BufferOverflow. -/
theorem Inv.feeds_oversizedHead (hinv : Inv s) (hs : Searching s) (ty : Byte) {l : Byte}
    (hbig : s.capacity < 7 + l.toNat) :
    Feeds [0xF0#8, 0xCA#8, ty, l] s fun t => Resumed s t ∧ t.state = 5#3 := by
  refine (hinv.feeds_type hs ty).append (ys := [l]) fun t h => ?_
  have hmove := RxMove.overflow l h.state h.cursor (h.capacity ▸ hbig)
  exact .of_rxStep (hmove.rxStep_eq h.inv.ready) ⟨⟨hmove.inv h.inv, .inr (.inr rfl), h.publog, h.capacity⟩, rfl⟩

/-! ### The data, the checksum and the postamble -/

/-- The head of a frame with TYPE `ty` and LENGTH `l`, and then `bs`. -/
abbrev headed (ty l : Byte) (bs : List Byte) : List Byte := 0xF0#8 :: 0xCA#8 :: ty :: l :: bs

/-- A frame is its last byte after all that comes before. -/
theorem frameOf_eq_append (ck : List Byte → Byte) (t l : Byte) (d : List Byte) :
    frameOf ck t l d = headed t l (d ++ [ck (t :: l :: d), 0x53#8]) ++ [0x0F#8] := by
  simp [frameOf_eq]

theorem Receiving.n_eq {st : StateCode} {ty l : Byte} {bs : List Byte} (h : Receiving s st (headed ty l bs) t) :
    t.n = l.toNat :=
  congrArg BitVec.toNat (h.read (i := 3) rfl)

/-- The data bytes, whatever their values. -/
theorem Receiving.feeds_data {ty l : Byte} {d₀ d : List Byte} (h : Receiving s 2#3 (headed ty l d₀) t)
    (hlen : d₀.length + d.length ≤ l.toNat) : Feeds d t (Receiving s 2#3 (headed ty l (d₀ ++ d))) := by
  induction d generalizing d₀ t with
  | nil => exact .nil (by rwa [List.append_nil])
  | cons b d ih =>
    have hn := h.n_eq
    simp only [List.length_cons] at hlen
    have hb : Feeds [b] t (Receiving s 2#3 (headed ty l (d₀ ++ [b]))) :=
      h.feeds_content (by simp) (by simp only [List.length_cons]; omega)
    refine hb.cons fun u hu => ?_
    have hrest := ih hu (by simp only [List.length_append, List.length_singleton]; omega)
    rwa [List.append_assoc] at hrest

theorem Receiving.feeds_checksum {ty l : Byte} {d : List Byte} (h : Receiving s 2#3 (headed ty l d) t)
    (hlen : d.length = l.toNat) (c : Byte) : Feeds [c] t (Receiving s 3#3 (headed ty l (d ++ [c]))) := by
  have hn := h.n_eq
  have hcur := h.cursor
  simp only [List.length_cons] at hcur
  exact h.feeds_store (.checksum c h.state (by omega) (by omega))

/-- A frame that fits, up to its checksum. -/
theorem Inv.feeds_body (hinv : Inv s) (hs : Searching s) (ty c : Byte) {l : Byte} {d : List Byte}
    (hlen : d.length = l.toNat) (hfit : 7 + l.toNat ≤ s.capacity) :
    Feeds (headed ty l (d ++ [c])) s (Receiving s 3#3 (headed ty l (d ++ [c]))) :=
  (hinv.feeds_head hs ty hfit).append fun _ h =>
    (h.feeds_data (d₀ := []) (by simp [hlen])).append fun _ h => h.feeds_checksum hlen c

/-- A frame that fits, up to its first postamble byte. -/
theorem Inv.feeds_postamble1 (hinv : Inv s) (hs : Searching s) (ty c : Byte) {l : Byte} {d : List Byte}
    (hlen : d.length = l.toNat) (hfit : 7 + l.toNat ≤ s.capacity) :
    Feeds (headed ty l (d ++ [c, 0x53#8])) s (Receiving s 4#3 (headed ty l (d ++ [c, 0x53#8]))) := by
  have h := (hinv.feeds_body hs ty c hlen hfit).append (ys := [0x53#8]) fun _ h => h.feeds_store (.postamble h.state)
  simpa using h

/-- In SearchPostamble2 the frame received so far is in the buffer, field by field. -/
theorem Receiving.fields {ty l c p : Byte} {d : List Byte} (h : Receiving s 4#3 (headed ty l (d ++ [c, p])) t)
    (hlen : d.length = l.toNat) :
    t.buf.read 2 = ty ∧ t.buf.read 3 = l ∧ t.buf.span 4 t.n = d ∧ t.buf.read (4 + t.n) = c := by
  have hn := h.n_eq
  have hcur := h.cursor
  refine ⟨h.read (i := 2) rfl, h.read (i := 3) rfl, ?_, h.read ?_⟩
  · have hspan := h.frame
    simp only [List.length_cons, List.length_append, List.length_nil] at hcur
    rw [State.frame, hcur, show d.length + (0 + 1 + 1) + 1 + 1 + 1 + 1 = 4 + (t.n + 2) by omega, Memory.span_append,
      Memory.span_append] at hspan
    have htail := List.append_inj_right (s₂ := [_, _, _, _]) hspan (Memory.length_span _ _ _)
    exact List.append_inj_left htail (by rw [Memory.length_span]; omega)
  · rw [show 4 + t.n = t.n + 1 + 1 + 1 + 1 by omega]
    simp [hn, hlen]

theorem Receiving.sum_iff {ty l c p : Byte} {d : List Byte} (h : Receiving s 4#3 (headed ty l (d ++ [c, p])) t)
    (hlen : d.length = l.toNat) :
    t.buf.read (4 + t.n) = checksumFn (t.buf.span 2 (2 + t.n)) ↔ c = checksumFn (ty :: l :: d) := by
  obtain ⟨hty, hl, hd, hc⟩ := h.fields hlen
  rw [Memory.span_two_add, hty, hl, hd, hc]

/-- The last byte of a frame whose checksum matches publishes its packet. -/
theorem Receiving.feeds_publish {ty l c p : Byte} {d : List Byte} (h : Receiving s 4#3 (headed ty l (d ++ [c, p])) t)
    (hlen : d.length = l.toNat) (hsum : c = checksumFn (ty :: l :: d)) :
    Feeds [0x0F#8] t (Delivered s ⟨ty, l, d⟩) := by
  obtain ⟨hty, hl, hd, _⟩ := h.fields hlen
  have hmove := RxMove.publish h.state ((h.sum_iff hlen).mpr hsum)
  exact .of_rxStep (hmove.rxStep_eq h.inv.ready)
    { inv := hmove.inv h.inv
      state := rfl
      publog := congrArg₂ _ h.publog (by rw [hty, hl, hd])
      capacity := h.capacity
      pktValid := rfl
      pktType := hty
      pktLen := hl }

/-- The last byte of a frame whose checksum differs drops it. -/
theorem Receiving.feeds_mismatch {ty l c p : Byte} {d : List Byte} (h : Receiving s 4#3 (headed ty l (d ++ [c, p])) t)
    (hlen : d.length = l.toNat) (hsum : c ≠ checksumFn (ty :: l :: d)) :
    Feeds [0x0F#8] t fun u => Resumed s u ∧ u.state = 0#3 := by
  have hmove := RxMove.mismatch h.state (mt (h.sum_iff hlen).mp hsum)
  exact .of_rxStep (hmove.rxStep_eq h.inv.ready) ⟨⟨hmove.inv h.inv, .inl rfl, h.publog, h.capacity⟩, rfl⟩

/-- A wrong postamble byte drops the frame. -/
theorem Receiving.feeds_drop {st : StateCode} {fr : List Byte} {b : Byte} (h : Receiving s st fr t)
    (hb : (st = 3#3 ∧ b ≠ 0x53#8) ∨ (st = 4#3 ∧ b ≠ 0x0F#8)) :
    Feeds [b] t fun u => Resumed s u ∧ u.state = 0#3 := by
  have hmove : ∃ row, RxMove t b ((t.setState 0#3).traced .framing row) := by
    obtain ⟨rfl, hb⟩ | ⟨rfl, hb⟩ := hb
    · exact ⟨_, .drop b _ (.inr (.inl ⟨h.state, hb, rfl⟩))⟩
    · exact ⟨_, .drop b _ (.inr (.inr ⟨h.state, hb, rfl⟩))⟩
  obtain ⟨row, hmove⟩ := hmove
  exact .of_rxStep (hmove.rxStep_eq h.inv.ready) ⟨⟨hmove.inv h.inv, .inl rfl, h.publog, h.capacity⟩, rfl⟩

/-! ### Whole frames -/

/-- A frame whose checksum matches is published, from any state that searches for one. -/
theorem Inv.feeds_frameOf (hinv : Inv s) (hs : Searching s) {p : Packet} (hlen : p.data.length = p.length.toNat)
    (hfit : 7 + p.length.toNat ≤ s.capacity) :
    Feeds (frameOf checksumFn p.type p.length p.data) s (Delivered s p) := by
  rw [frameOf_eq_append]
  exact (hinv.feeds_postamble1 hs p.type _ hlen hfit).append fun _ h => h.feeds_publish hlen rfl

theorem Inv.feeds_wellFormed (hinv : Inv s) (hs : Searching s) {f : List Byte} {p : Packet}
    (h : decodeFn checksumFn s.capacity f = .ok p) : Feeds f s (Delivered s p) := by
  obtain ⟨hlen, hfit, rfl⟩ := decodeFn_eq_ok h
  exact hinv.feeds_frameOf hs hlen hfit

/-- A frame that fits and whose checksum differs is dropped. -/
theorem Inv.feeds_badSum (hinv : Inv s) (hs : Searching s) (ty : Byte) {c l : Byte} {d : List Byte}
    (hlen : d.length = l.toNat) (hfit : 7 + l.toNat ≤ s.capacity) (hsum : c ≠ checksumFn (ty :: l :: d)) :
    Feeds (headed ty l (d ++ [c, 0x53#8, 0x0F#8])) s fun u => Resumed s u ∧ u.state = 0#3 := by
  have h := (hinv.feeds_postamble1 hs ty c hlen hfit).append (ys := [0x0F#8]) fun _ h => h.feeds_mismatch hlen hsum
  simpa using h

theorem Hunting.searching (h : Hunting s) : Searching s := h.imp_right .inr

end

/-- Settles O42: up to its first postamble byte a frame is only received, and the byte after it publishes. -/
theorem wellFormedFrameIsPublishedOnce : Obligations.WellFormedFrameIsPublishedOnce := by
  intro s f p hinv hs h
  obtain ⟨t, ht, hdel⟩ := hinv.feeds_wellFormed hs.searching h
  refine ⟨?_, t, ht, hdel.publog, hdel.state⟩
  obtain ⟨hlen, hfit, rfl⟩ := decodeFn_eq_ok h
  obtain ⟨u, hu, hrec⟩ :=
    hinv.feeds_postamble1 hs.searching p.type (checksumFn (p.type :: p.length :: p.data)) hlen hfit
  rw [frameOf_eq_append, List.dropLast_concat]
  exact ⟨u, hu, hrec.publog⟩

end Sys2Proof.Machine
end

section
/-! PROOF. The laws of the receive machine: agreement with the decoder, corruption, framing, garbage, and frames in a
row (40_receive R95 to R97, 42_codec R112, R113). -/

namespace Sys2Proof.Machine

/-! ### Garbage -/

theorem noPreamblePair_cons {b : Byte} {bs : List Byte} :
    noPreamblePair (b :: bs) = true ↔ ¬ (b = 0xF0#8 ∧ bs.head? = some 0xCA#8) ∧ noPreamblePair bs = true := by
  simp [noPreamblePair, Config.preamble1, Config.preamble2, imp_iff_not_or]

theorem noPreamblePair_of_append {xs ys : List Byte} (h : noPreamblePair (xs ++ ys) = true) :
    noPreamblePair xs = true ∧ noPreamblePair ys = true := by
  induction xs with
  | nil => exact ⟨rfl, h⟩
  | cons b xs ih =>
    rw [List.cons_append] at h
    obtain ⟨hpair, hrest⟩ := noPreamblePair_cons.mp h
    obtain ⟨hxs, hys⟩ := ih hrest
    refine ⟨noPreamblePair_cons.mpr ⟨fun ⟨hb, hhead⟩ => hpair ⟨hb, ?_⟩, hxs⟩, hys⟩
    rw [List.head?_append, hhead, Option.some_or]

section
variable {s t : State}

theorem Resumed.refl (hinv : Inv s) (hs : Searching s) : Resumed s s := ⟨hinv, hs, rfl, rfl⟩

theorem Resumed.trans {u : State} (h : Resumed s t) (h' : Resumed t u) : Resumed s u :=
  ⟨h'.inv, h'.searching, h'.publog.trans h.publog, h'.capacity.trans h.capacity⟩

/-- What is delivered after the machine has resumed is all that is published. -/
theorem Resumed.delivered {u : State} {p : Packet} (h : Resumed s t) (h' : Delivered t p u) : Delivered s p u :=
  ⟨h'.inv, h'.state, by rw [h'.publog, h.publog], h'.capacity.trans h.capacity, h'.pktValid, h'.pktType, h'.pktLen⟩

/-- A byte that completes no preamble leaves the machine searching; it has seen a first F0 only after an F0. -/
theorem Inv.feeds_other (hinv : Inv s) (hs : Searching s) {b : Byte} (hb : s.state = 1#3 → b ≠ 0xCA#8) :
    Feeds [b] s fun t => Resumed s t ∧ (t.state = 1#3 → b = 0xF0#8) := by
  obtain ⟨t, ht, hmove⟩ := hinv.exists_rxStep b
  refine .of_rxStep ht ?_
  have hinv' := hmove.inv hinv
  cases hmove with
  | discard _ hst =>
    refine ⟨.refl hinv hs, fun h1 => ?_⟩
    obtain hst | hst := hst <;> simp [hst, Config.sp1, Config.bo] at h1
  | start | restart => exact ⟨⟨hinv', .inr (.inl rfl), rfl, rfl⟩, fun _ => rfl⟩
  | preamble hst => exact absurd rfl (hb hst)
  | drop => exact ⟨⟨hinv', .inl rfl, rfl, rfl⟩, nofun⟩
  | overflow _ hst | content _ hst | checksum _ hst | postamble hst | publish hst | mismatch hst =>
    simp [Searching, hst] at hs

/-- Garbage with no adjacent `F0 CA` leaves the machine searching and publishes nothing. -/
theorem Inv.feeds_garbage (hinv : Inv s) (hs : Searching s) {bs : List Byte}
    (hhead : s.state = 1#3 → bs.head? ≠ some 0xCA#8) (hbs : noPreamblePair bs = true) : Feeds bs s (Resumed s) := by
  induction bs generalizing s with
  | nil => exact .nil (.refl hinv hs)
  | cons b bs ih =>
    obtain ⟨hpair, hrest⟩ := noPreamblePair_cons.mp hbs
    refine (hinv.feeds_other hs fun h1 hb => hhead h1 (by rw [List.head?_cons, hb])).cons fun t ht => ?_
    obtain ⟨ht, hseen⟩ := ht
    exact (ih ht.inv ht.searching (fun h1 hca => hpair ⟨hseen h1, hca⟩) hrest).mono fun u hu => ht.trans hu

theorem Hunting.ne_sp2 (hs : Hunting s) : s.state ≠ 1#3 := by
  obtain hs | hs := hs <;> simp [hs, Config.sp1, Config.bo]

theorem Inv.feeds_huntedGarbage (hinv : Inv s) (hs : Hunting s) {bs : List Byte} (hbs : noPreamblePair bs = true) :
    Feeds bs s (Resumed s) :=
  hinv.feeds_garbage hs.searching (fun h1 => absurd h1 hs.ne_sp2) hbs

/-- A well-formed frame after garbage is delivered. -/
theorem Inv.feeds_garbage_frame (hinv : Inv s) (hs : Hunting s) {g f : List Byte} {p : Packet}
    (hg : noPreamblePair g = true) (hf : decodeFn checksumFn s.capacity f = .ok p) :
    Feeds (g ++ f) s (Delivered s p) :=
  (hinv.feeds_huntedGarbage hs hg).append fun _ ht =>
    (ht.inv.feeds_wellFormed ht.searching (ht.capacity ▸ hf)).mono fun _ hu => ht.delivered hu

end

/-! ### Agreement with the decoder -/

/-- Settles O43: past the head the two postamble bytes and the checksum decide, for the machine as for DECODE_FN. -/
theorem receiverAgreesWithDecoderWhenItFits : Obligations.ReceiverAgreesWithDecoderWhenItFits := by
  intro s t l rest hinv hst hlen hfit
  have hs : Searching s := .inl hst
  obtain ⟨d, c, b₁, b₂, hd, rfl⟩ := exists_data_of_length hlen
  rw [decodeFn_of_declaredLength t c b₁ b₂ hd hfit]
  by_cases hb₁ : b₁ = 0x53#8
  swap
  · have hfeed : Feeds (headed t l (d ++ [c]) ++ [b₁, b₂]) s (Resumed s) :=
      (hinv.feeds_body hs t c hd hfit).append fun _ h => (h.feeds_drop (.inl ⟨rfl, hb₁⟩)).cons fun _ hu =>
        (hu.1.inv.feeds_huntedGarbage (.inl hu.2) (by simp [noPreamblePair])).mono fun _ hv => hu.1.trans hv
    obtain ⟨u, hu, hres⟩ := hfeed
    exact ⟨u, by simpa using hu, by rw [if_pos (.inl hb₁)]; exact hres.publog⟩
  subst hb₁
  by_cases hb₂ : b₂ = 0x0F#8
  swap
  · obtain ⟨u, hu, hres, _⟩ := (hinv.feeds_postamble1 hs t c hd hfit).append (ys := [b₂]) fun _ h =>
      h.feeds_drop (.inr ⟨rfl, hb₂⟩)
    exact ⟨u, by simpa using hu, by rw [if_pos (.inr hb₂)]; exact hres.publog⟩
  subst hb₂
  rw [if_neg (by simp)]
  by_cases hsum : c = checksumFn (t :: l :: d)
  · obtain ⟨u, hu, hdel⟩ := hinv.feeds_frameOf hs (p := ⟨t, l, d⟩) hd hfit
    rw [frameOf_eq, ← hsum] at hu
    exact ⟨u, hu, by rw [if_neg (not_not.mpr hsum)]; exact ⟨hdel.publog, hdel.state⟩⟩
  · obtain ⟨u, hu, hres, _⟩ := hinv.feeds_badSum hs t hd hfit hsum
    exact ⟨u, hu, by rw [if_pos hsum]; exact hres.publog⟩

/-- An oversized list of its declared length, at CAPACITY 7, whose rest is a whole frame. -/
def oversizedWithFrame : List Byte :=
  headed 0x00#8 0x04#8 [0xF0#8, 0xCA#8, 0x00#8, 0x00#8, 0x00#8, 0x53#8, 0x0F#8]

/-- Fed from power-on at CAPACITY 7 the oversized list publishes the frame it holds. -/
theorem feed_oversizedWithFrame :
    ∃ u, feed oversizedWithFrame (State.powerOn 7 []) = .next u ∧ u.publog = [⟨0x00#8, 0x00#8, []⟩] :=
  ⟨_, rfl, rfl⟩

theorem decodeFn_oversizedWithFrame : decodeFn checksumFn 7 oversizedWithFrame = .err .oversize := by decide

/-- Refutes O44: DECODE_FN answers OVERSIZE for `F0 CA 00 04 F0 CA 00 00 00 53 0F` at CAPACITY 7, and the machine
publishes the frame at its end. -/
theorem not_receiverAgreesWithDecoderAlways : ¬ Obligations.ReceiverAgreesWithDecoderAlways := by
  intro h
  have hinv : Inv (State.powerOn 7 []) := powerOnMeetsTheInvariants.2 7 [] le_rfl rfl rfl
  obtain ⟨u, hu, hiff⟩ := h (State.powerOn 7 []) 0x00#8 0x04#8
    [0xF0#8, 0xCA#8, 0x00#8, 0x00#8, 0x00#8, 0x53#8, 0x0F#8] hinv rfl rfl
  obtain ⟨v, hv, hpub⟩ := feed_oversizedWithFrame
  obtain rfl : u = v := Host.Outcome.next.inj (hu.symm.trans hv)
  have hok := hiff.mp (by rw [hpub]; nofun)
  have herr : (decodeFn checksumFn 7 oversizedWithFrame).isOk = false := by
    rw [decodeFn_oversizedWithFrame, DecodeResult.isOk]
  exact absurd (herr.symm.trans hok) (by simp)

/-! ### What the checksum detects -/

/-- Another byte in one place gives another sum. -/
theorem checksumFn_set_ne {d : List Byte} {i : Nat} {x : Byte} (hi : i < d.length) (hx : d[i]? ≠ some x) :
    checksumFn (d.set i x) ≠ checksumFn d := by
  induction d generalizing i with
  | nil => simp at hi
  | cons b d ih =>
    cases i with
    | zero => simpa [eq_comm] using hx
    | succ i => simpa using ih (by simpa using hi) (by simpa using hx)

/-- A frame with one byte changed at TYPE, in DATA or at CHECKSUM keeps its shape, and its checksum no longer
matches. -/
theorem exists_corruptedFrame {ty l x : Byte} {d : List Byte} {k : Nat} (hlen : d.length = l.toNat)
    (hk : k = 2 ∨ (4 ≤ k ∧ k ≤ 4 + l.toNat)) (hx : (frameOf checksumFn ty l d)[k]? ≠ some x) :
    ∃ ty' d' c, d'.length = l.toNat ∧ c ≠ checksumFn (ty' :: l :: d') ∧
      (frameOf checksumFn ty l d).set k x = headed ty' l (d' ++ [c, 0x53#8, 0x0F#8]) := by
  rw [frameOf_eq] at hx ⊢
  obtain rfl | ⟨h4, hle⟩ := hk
  · refine ⟨x, d, _, hlen, ?_, rfl⟩
    simpa using hx
  · obtain ⟨i, rfl⟩ := Nat.exists_eq_add_of_le' h4
    simp only [List.getElem?_cons_succ] at hx
    by_cases hi : i < d.length
    · refine ⟨ty, d.set i x, _, by rw [List.length_set, hlen], ?_, congrArg (headed ty l) (List.set_append_left i x hi)⟩
      rw [List.getElem?_append_left hi] at hx
      simpa [eq_comm] using checksumFn_set_ne hi hx
    · obtain rfl : i = d.length := by omega
      refine ⟨ty, d, x, hlen, ?_, congrArg (headed ty l) (by simp)⟩
      simpa [eq_comm] using hx

/-- Settles O41: the changed frame still has its shape, so only its checksum is wrong. -/
theorem oneByteCorruptionIsRejected : Obligations.OneByteCorruptionIsRejected := by
  intro s f p k x hinv hst h hk hx
  obtain ⟨hlen, hfit, rfl⟩ := decodeFn_eq_ok h
  obtain ⟨ty, d, c, hd, hsum, hf⟩ := exists_corruptedFrame hlen hk hx
  rw [hf]
  refine ⟨?_, ?_⟩
  · rw [decodeFn_of_declaredLength ty c _ _ hd hfit, if_neg (by simp), if_pos hsum]
  · obtain ⟨t, ht, hres, hst'⟩ := hinv.feeds_badSum (.inl hst) ty hd hfit hsum
    exact ⟨t, ht, hres.publog, hst'⟩

/-! ### Framing is never lost for good -/

section
variable {s t : State}

/-- Inside a frame CURSOR stands past the preamble and inside the buffer. -/
theorem Inv.cursor_of_inFrame (hinv : Inv s) (hs : ¬ Searching s) : 2 ≤ s.cursor ∧ s.cursor < s.capacity := by
  obtain hst | hst | hst | hst | hst | hst := hinv.state_cases
  · exact absurd (.inl hst) hs
  · exact absurd (.inr (.inl hst)) hs
  · have hcur := hinv.rc_cursor hst
    have hfits := (hinv.rc_fits hst).1
    omega
  · obtain ⟨hcur, hfit⟩ := hinv.spo1_fits hst
    omega
  · obtain ⟨hcur, hfit⟩ := hinv.spo2_fits hst
    omega
  · exact absurd (.inr (.inr hst)) hs

/-- A move that stays inside a frame moves CURSOR on by one. -/
theorem RxMove.cursor_of_inFrame {b : Byte} (hmove : RxMove s b t) (hs : ¬ Searching s) (ht : ¬ Searching t) :
    t.cursor = s.cursor + 1 ∧ t.capacity = s.capacity := by
  cases hmove with
  | discard => exact absurd (Hunting.searching ‹_›) hs
  | start | restart => exact absurd (.inr (.inl rfl)) ht
  | drop | publish | mismatch => exact absurd (.inl rfl) ht
  | overflow => exact absurd (.inr (.inr rfl)) ht
  | preamble | content | checksum | postamble => exact ⟨rfl, rfl⟩

/-- Inside a frame the machine searches again after as many bytes as the buffer has room for, at the latest. -/
theorem Inv.exists_searching (hinv : Inv s) (hs : ¬ Searching s) {bs : List Byte}
    (hlen : s.capacity - s.cursor ≤ bs.length) :
    ∃ k, k ≤ s.capacity - s.cursor ∧ Feeds (bs.take k) s Searching := by
  induction bs generalizing s with
  | nil =>
    obtain ⟨_, hroom⟩ := hinv.cursor_of_inFrame hs
    rw [List.length_nil] at hlen
    omega
  | cons b bs ih =>
    obtain ⟨t, ht, hmove⟩ := hinv.exists_rxStep b
    by_cases hst : Searching t
    · obtain ⟨_, hroom⟩ := hinv.cursor_of_inFrame hs
      exact ⟨1, by omega, .of_rxStep ht hst⟩
    · obtain ⟨_, hroom⟩ := hinv.cursor_of_inFrame hs
      obtain ⟨hcur, hcap⟩ := hmove.cursor_of_inFrame hs hst
      rw [List.length_cons] at hlen
      obtain ⟨k, hk, hfeed⟩ := ih (hmove.inv hinv) hst (by omega)
      exact ⟨k + 1, by omega, (Feeds.of_rxStep (P := (· = t)) ht rfl).cons fun u hu => hu ▸ hfeed⟩

end

/-- Settles O45: each byte inside a frame takes one byte of the room that the preamble has left. -/
theorem framingIsNeverLostForGood : Obligations.FramingIsNeverLostForGood := by
  intro s bs hinv hlen
  by_cases hs : Searching s
  · exact ⟨0, s, Nat.zero_le _, rfl, hs⟩
  · obtain ⟨hcur, _⟩ := hinv.cursor_of_inFrame hs
    obtain ⟨k, hk, t, ht, hst⟩ := hinv.exists_searching hs (bs := bs) (by omega)
    exact ⟨k, t, by omega, ht, hst⟩

/-! ### Frames in a row -/

/-- Settles O47: a delivered frame and an oversized head both leave a machine that hunts. -/
theorem backToBackAndOverflowRecovery : Obligations.BackToBackAndOverflowRecovery := by
  refine ⟨fun s F₁ F₂ p₁ p₂ hinv hst h₁ h₂ => ?_, fun s t l r F p hinv hst hbig hr hF => ?_⟩
  · obtain ⟨u, hu, hdel⟩ := hinv.feeds_wellFormed (.inl hst) h₁
    obtain ⟨t, ht, hdel'⟩ := hdel.inv.feeds_wellFormed (.inl hdel.state) (hdel.capacity ▸ h₂)
    refine ⟨u, t, hu, hdel.state, by rw [feed_append, hu, andThen_next, ht], ?_, hdel'.state⟩
    rw [hdel'.publog, hdel.publog, List.append_assoc, List.singleton_append]
  · obtain ⟨u, hu, hres, hbo⟩ := hinv.feeds_oversizedHead (.inl hst) t hbig
    obtain ⟨v, hv, hdel⟩ := hres.inv.feeds_garbage_frame (.inr hbo) hr (hres.capacity ▸ hF)
    have hdel := hres.delivered hdel
    refine ⟨u, v, hu, hbo, hres.publog, ?_, hdel.publog, hdel.state⟩
    rw [List.append_assoc, feed_append, hu, andThen_next, hv]

/-! ### Frames over several calls -/

section
variable {s t : State}

/-- Nothing waits in the queue and the transport appends nothing of its own. -/
structure Quiet (s : State) : Prop where
  rxq : s.rxq = []
  arrivals : s.arrivals = []
  endless : s.endless = false

theorem Quiet.feed {bs : List Byte} (h : Quiet s) (ht : feed bs s = .next t) : Quiet t := by
  obtain ⟨hq, ha, _, he⟩ := feed_line ht
  exact ⟨hq.trans h.rxq, ha.trans h.arrivals, he.trans h.endless⟩

theorem Quiet.onLine_eq (h : Quiet s) (r : Option Result) : s.onLine [] [] r = { s with result := r } := by
  rw [State.onLine, ← h.rxq, ← h.arrivals]

/-- One call feeds what has been appended for it. -/
theorem Quiet.exec_processInput {bs : List Byte} (h : Quiet s) (ht : Machine.feed bs s = .next t) :
    exec .processInput (s.received bs) = .next (t.returns .unit) := by
  have hrxq : s.received bs = s.withRxq bs := by rw [State.received, h.rxq, List.nil_append, State.withRxq]
  have hself : s.withRxq [] = s := by rw [← h.rxq, withRxq_rxq]
  rw [hrxq, execProcessInput_eq_feed bs h.arrivals h.endless, hself, ht, andThen_next, finish]

/-- However the bytes are split over calls, the calls feed them all; only the result tells them from one feeding. -/
theorem Quiet.feedCalls {chunks : List (List Byte)} (h : Quiet s) (ht : Machine.feed chunks.flatten s = .next t) :
    ∃ r, Machine.feedCalls chunks s = .next { t with result := r } := by
  induction chunks generalizing s t with
  | nil =>
    injection ht with ht
    exact ⟨s.result, by rw [← ht]; rfl⟩
  | cons bs chunks ih =>
    rw [List.flatten_cons, feed_append] at ht
    obtain ⟨u, hu, ht⟩ := andThen_eq_next.mp ht
    have hquiet := h.feed hu
    have hrest : Machine.feed chunks.flatten (u.returns .unit) = .next { t with result := some .unit } := by
      rw [State.returns, ← hquiet.onLine_eq, feed_onLine, ht, mapNext_next, (hquiet.feed ht).onLine_eq]
    obtain ⟨r, hr⟩ := ih (s := u.returns .unit) ⟨hquiet.rxq, hquiet.arrivals, hquiet.endless⟩ hrest
    exact ⟨r, by rw [Machine.feedCalls, h.exec_processInput hu, andThen_next, hr]⟩

end

/-- RESET leaves a machine that hunts in SearchPreamble1, with nothing published and the queue as it was. -/
theorem Inv.exec_reset {s : State} (hinv : Inv s) (hquiet : Quiet s) :
    ∃ t, exec .reset s = .next t ∧ Resumed s t ∧ t.state = 0#3 ∧ Quiet t :=
  ⟨_, rfl, ⟨hinv.of_exec_reset rfl, .inl rfl, rfl, rfl⟩, rfl, ⟨hquiet.rxq, hquiet.arrivals, hquiet.endless⟩⟩

/-- Settles O46: the calls feed the garbage and the frame, and RESET leaves a machine that hunts with nothing
published. -/
theorem resynchronisationLaw : Obligations.ResynchronisationLaw := by
  intro s G F p hinv hs hq ha he hG hF
  have hquiet : Quiet s := ⟨hq, ha, he⟩
  refine ⟨fun chunks hchunks => ?_, fun before after G₁ G₂ hsplit hbefore hafter => ?_⟩
  · obtain ⟨t, ht, hdel⟩ := hinv.feeds_garbage_frame hs hG hF
    obtain ⟨r, hr⟩ := hquiet.feedCalls (hchunks ▸ ht)
    exact ⟨_, hr, hdel.publog, hdel.state, hdel.pktValid, hdel.pktType, hdel.pktLen⟩
  · obtain ⟨hG₁, hG₂⟩ := noPreamblePair_of_append (hsplit ▸ hG)
    obtain ⟨u, hu, hres⟩ := hinv.feeds_huntedGarbage hs hG₁
    obtain ⟨r, hr⟩ := hquiet.feedCalls (hbefore ▸ hu)
    have hquiet' := hquiet.feed hu
    obtain ⟨v, hv, hres', hst, hquiet''⟩ := Inv.exec_reset (s := { u with result := r }) hres.inv
      ⟨hquiet'.rxq, hquiet'.arrivals, hquiet'.endless⟩
    have hres := hres.trans (⟨hres'.inv, hres'.searching, hres'.publog, hres'.capacity⟩ : Resumed u v)
    obtain ⟨t, ht, hdel⟩ := hres.inv.feeds_garbage_frame (.inl hst) hG₂ (hres.capacity ▸ hF)
    obtain ⟨r', hr'⟩ := hquiet''.feedCalls (hafter ▸ ht)
    have hdel := hres.delivered hdel
    exact ⟨_, v, _, hr, hv, hr', hdel.publog, hdel.state, hdel.pktValid, hdel.pktType, hdel.pktLen⟩

end Sys2Proof.Machine
end

section
/-! PROOF. What no rule may read is never observed, and RESET is like power-on (10_state R31, R35; 70_reset R143). -/

namespace Sys2Proof.Machine

/-! ### Two states that differ in what no rule may read -/

/-- `t` differs from `s` at most in the buffer at or above index `k`, in the type and length of the Packet, and in the
logs. -/
structure Twins (k : Nat) (s t : State) : Prop where
  wf : t.buf.wf = true
  shape : t = { s with buf := t.buf, pktType := t.pktType, pktLen := t.pktLen, txlog := t.txlog, publog := t.publog,
                       trace := t.trace }
  read : ∀ i, i < k → s.buf.read i = t.buf.read i

section
variable {s t : State} {k : Nat}

theorem SameToCaller.eq_with (h : SameToCaller s t) :
    ∃ m ty len tx pub tr,
      t = { s with buf := m, pktType := ty, pktLen := len, txlog := tx, publog := pub, trace := tr } := by
  obtain ⟨_, ht, _⟩ := h
  exact ⟨_, _, _, _, _, _, ht⟩

theorem SameToCaller.state_eq (h : SameToCaller s t) : t.state = s.state := by
  obtain ⟨_, _, _, _, _, _, rfl⟩ := h.eq_with
  rfl

theorem SameToCaller.cursor_eq (h : SameToCaller s t) : t.cursor = s.cursor := by
  obtain ⟨_, _, _, _, _, _, rfl⟩ := h.eq_with
  rfl

theorem SameToCaller.capacity_eq (h : SameToCaller s t) : t.capacity = s.capacity := by
  obtain ⟨_, _, _, _, _, _, rfl⟩ := h.eq_with
  rfl

theorem SameToCaller.pktValid_eq (h : SameToCaller s t) : t.pktValid = s.pktValid := by
  obtain ⟨_, _, _, _, _, _, rfl⟩ := h.eq_with
  rfl

/-- Neither the transport, nor the moves to come, nor the marks differ. -/
theorem SameToCaller.env_eq (h : SameToCaller s t) :
    (t.rxq = s.rxq ∧ t.arrivals = s.arrivals ∧ t.endless = s.endless) ∧
      t.script = s.script ∧ t.faultMark = s.faultMark ∧ t.refusedMark = s.refusedMark ∧ t.result = s.result := by
  obtain ⟨_, _, _, _, _, _, rfl⟩ := h.eq_with
  exact ⟨⟨rfl, rfl, rfl⟩, rfl, rfl, rfl, rfl⟩

/-- Outside a frame, with no Packet, nothing in the buffer may be read. -/
theorem Twins.sameToCaller_of_dead (h : Twins k s t) (hs : Hunting s) (hv : s.pktValid = false) : SameToCaller s t := by
  refine ⟨h.wf, h.shape, fun hlive => ?_, fun hv' => ?_⟩
  · obtain hs | hs := hs <;> simp [State.live, hv, hs] at hlive
  · simp [hv] at hv'

theorem Twins.sameToCaller (h : Twins s.cursor s t)
    (hv : s.pktValid = true → s.pktType = t.pktType ∧ s.pktLen = t.pktLen) : SameToCaller s t :=
  ⟨h.wf, h.shape, fun _ => h.read, hv⟩

theorem SameToCaller.twins (h : SameToCaller s t) : Twins 0 s t := by
  obtain ⟨hwf, ht, _⟩ := h
  exact ⟨hwf, ht, nofun⟩

/-- While a frame is received the bytes below CURSOR agree. -/
theorem SameToCaller.twins_of_frame (h : SameToCaller s t) (h0 : s.state ≠ 0#3) (h5 : s.state ≠ 5#3) :
    Twins s.cursor s t := by
  obtain ⟨hwf, ht, hread, _⟩ := h
  exact ⟨hwf, ht, hread (by simp [State.live, Config.sp1, Config.bo, h0, h5])⟩

/-- While a Packet is valid the bytes below CURSOR agree, and so do its type and length. -/
theorem SameToCaller.twins_of_valid (h : SameToCaller s t) (hv : s.pktValid = true) :
    Twins s.cursor s t ∧ s.pktType = t.pktType ∧ s.pktLen = t.pktLen := by
  obtain ⟨hwf, ht, hread, hpkt⟩ := h
  exact ⟨⟨hwf, ht, hread (by simp [State.live, hv])⟩, hpkt hv⟩

/-! ### The shared updates keep twins twins -/

theorem Twins.setState (c : StateCode) (h : Twins k s t) : Twins k (s.setState c) (t.setState c) :=
  ⟨h.wf, congrArg (State.setState c) h.shape, h.read⟩

theorem Twins.traced (c : TraceCode) (row : RxRow) (h : Twins k s t) : Twins k (s.traced c row) (t.traced c row) := by
  refine ⟨h.wf, ?_, h.read⟩
  rw [h.shape]
  rfl

theorem Twins.publish (ty n : Byte) (d : List Byte) (h : Twins k s t) :
    Twins k (s.publish ty n d) (t.publish ty n d) := by
  refine ⟨h.wf, ?_, h.read⟩
  rw [h.shape]
  rfl

theorem Twins.clearCursor (h : Twins k s t) : Twins 0 s.clearCursor t.clearCursor :=
  ⟨h.wf, congrArg State.clearCursor h.shape, nofun⟩

theorem Twins.cursor_eq (h : Twins k s t) : t.cursor = s.cursor := by
  rw [h.shape]

/-- Storing the same byte at CURSOR adds it to what agrees. -/
theorem Twins.stored (b : Byte) (hwf : s.buf.wf = true) (h : Twins s.cursor s t) :
    Twins (s.cursor + 1) (s.stored b) (t.stored b) := by
  refine ⟨Memory.wf_write h.wf _ _, ?_, fun i hi => ?_⟩
  · rw [h.shape]
    rfl
  · by_cases hne : i = s.cursor
    · rw [hne, stored_read_self b hwf, ← h.cursor_eq, stored_read_self b h.wf]
    · rw [stored_read_of_ne b hne, stored_read_of_ne b (by rwa [h.cursor_eq]), h.read i (by omega)]

theorem Twins.span_eq (h : Twins k s t) {lo n : Nat} (hk : lo + n ≤ k) : t.buf.span lo n = s.buf.span lo n :=
  Memory.span_congr fun i _ hi => (h.read i (by omega)).symm

theorem Twins.n_eq (h : Twins k s t) (hk : 3 < k) : t.n = s.n :=
  congrArg BitVec.toNat (h.read 3 hk).symm

/-- The twin of an invariant state is ready for a receive step. -/
theorem SameToCaller.ready (h : SameToCaller s t) (hinv : Inv s) : Ready t where
  capacity := h.capacity_eq ▸ hinv.seven_le_capacity
  wf := h.1
  sp2 hst := by
    rw [h.state_eq] at hst
    rw [h.cursor_eq, hinv.cursor_of_sp2 hst]
  rc hst := by
    rw [h.state_eq] at hst
    rw [h.cursor_eq, h.capacity_eq]
    exact (hinv.rc_fits hst).1
  spo1 hst := by
    rw [h.state_eq] at hst
    have hn := (h.twins_of_frame (by simp [hst]) (by simp [hst])).n_eq (by have := hinv.spo1_fits hst; omega)
    rw [h.cursor_eq, h.capacity_eq, hn]
    exact hinv.spo1_fits hst
  spo2 hst := by
    rw [h.state_eq] at hst
    have hn := (h.twins_of_frame (by simp [hst]) (by simp [hst])).n_eq (by have := hinv.spo2_fits hst; omega)
    rw [h.cursor_eq, h.capacity_eq, hn]
    exact hinv.spo2_fits hst

end

/-! ### A receive step on twins -/

/-- Two runs have gone on from `s` and `t` to twins, with the same packets published and the same bytes sent. -/
def SameGrowth (s t s' t' : State) : Prop :=
  SameToCaller s' t' ∧ (∃ ps, s'.publog = s.publog ++ ps ∧ t'.publog = t.publog ++ ps) ∧
    ∃ fs, s'.txlog = s.txlog ++ fs ∧ t'.txlog = t.txlog ++ fs

section
variable {s t s' t' : State}

/-- Nothing published and nothing sent. -/
theorem SameGrowth.of_same (h : SameToCaller s' t') (hs : s'.publog = s.publog ∧ s'.txlog = s.txlog)
    (ht : t'.publog = t.publog ∧ t'.txlog = t.txlog) : SameGrowth s t s' t' := by
  refine ⟨h, ⟨[], ?_, ?_⟩, [], ?_, ?_⟩ <;> rw [List.append_nil]
  exacts [hs.1, ht.1, hs.2, ht.2]

theorem SameGrowth.trans {u v : State} (h : SameGrowth s t s' t') (h' : SameGrowth s' t' u v) : SameGrowth s t u v := by
  obtain ⟨_, ⟨ps, hps, hps'⟩, fs, hfs, hfs'⟩ := h
  obtain ⟨hsame, ⟨qs, hqs, hqs'⟩, gs, hgs, hgs'⟩ := h'
  refine ⟨hsame, ⟨ps ++ qs, ?_, ?_⟩, fs ++ gs, ?_, ?_⟩ <;> rw [← List.append_assoc]
  exacts [hqs.trans (by rw [hps]), hqs'.trans (by rw [hps']), hgs.trans (by rw [hfs]), hgs'.trans (by rw [hfs'])]

/-- A move of one of two twins is matched by a move of the other. -/
theorem RxMove.twin {b : Byte} (hmove : RxMove s b s') (hinv : Inv s) (h : SameToCaller s t) :
    ∃ t', RxMove t b t' ∧ SameGrowth s t s' t' := by
  have hst' := h.state_eq
  have hcur' := h.cursor_eq
  have hcap' := h.capacity_eq
  have hwf := hinv.buf_wf
  have hstart : Twins 1 ((s.clearCursor.stored 0xF0#8).setState 1#3) ((t.clearCursor.stored 0xF0#8).setState 1#3) :=
    (Twins.stored (s := s.clearCursor) 0xF0#8 hwf h.twins.clearCursor).setState 1#3
  cases hmove with
  | discard _ hst hb =>
    exact ⟨t, .discard b (by rwa [Hunting, hst']) hb, .of_same h ⟨rfl, rfl⟩ ⟨rfl, rfl⟩⟩
  | start hst =>
    exact ⟨_, .start (by rwa [Hunting, hst']), .of_same (hstart.sameToCaller nofun) ⟨rfl, rfl⟩ ⟨rfl, rfl⟩⟩
  | restart hst =>
    exact ⟨_, .restart (hst'.trans hst),
      .of_same ((hstart.traced _ _).sameToCaller nofun) ⟨rfl, rfl⟩ ⟨rfl, rfl⟩⟩
  | preamble hst =>
    have htw := h.twins_of_frame (by simp [hst]) (by simp [hst])
    exact ⟨_, .preamble (hst'.trans hst),
      .of_same (((htw.stored _ hwf).setState _).sameToCaller nofun) ⟨rfl, rfl⟩ ⟨rfl, rfl⟩⟩
  | drop _ row hst =>
    have hv : s.pktValid = false := by
      refine hinv.pktValid_eq_false ?_
      obtain ⟨hst, _⟩ | ⟨hst, _⟩ | ⟨hst, _⟩ := hst <;> simp [hst]
    exact ⟨_, .drop b row (by rwa [hst']),
      .of_same (((h.twins.setState _).traced _ _).sameToCaller_of_dead (.inl rfl) hv) ⟨rfl, rfl⟩ ⟨rfl, rfl⟩⟩
  | overflow _ hst h3 hbig =>
    have htw := h.twins_of_frame (by simp [hst]) (by simp [hst])
    exact ⟨_, .overflow b (hst'.trans hst) (hcur'.trans h3) (hcap'.symm ▸ hbig),
      .of_same ((((htw.stored b hwf).setState _).traced _ _).sameToCaller nofun) ⟨rfl, rfl⟩ ⟨rfl, rfl⟩⟩
  | content _ hst hfit hend =>
    have htw := h.twins_of_frame (by simp [hst]) (by simp [hst])
    have hn := htw.n_eq
    exact ⟨_, .content b (hst'.trans hst) (by omega) (by omega),
      .of_same ((htw.stored b hwf).sameToCaller nofun) ⟨rfl, rfl⟩ ⟨rfl, rfl⟩⟩
  | checksum _ hst h4 hend =>
    have htw := h.twins_of_frame (by simp [hst]) (by simp [hst])
    have hn := htw.n_eq
    exact ⟨_, .checksum b (hst'.trans hst) (by omega) (by omega),
      .of_same (((htw.stored b hwf).setState _).sameToCaller nofun) ⟨rfl, rfl⟩ ⟨rfl, rfl⟩⟩
  | postamble hst =>
    have htw := h.twins_of_frame (by simp [hst]) (by simp [hst])
    exact ⟨_, .postamble (hst'.trans hst),
      .of_same (((htw.stored _ hwf).setState _).sameToCaller nofun) ⟨rfl, rfl⟩ ⟨rfl, rfl⟩⟩
  | publish hst hsum =>
    have htw := h.twins_of_frame (by simp [hst]) (by simp [hst])
    obtain ⟨hcur, hfit⟩ := hinv.spo2_fits hst
    have hn := htw.n_eq (by omega)
    have h2 := htw.read 2 (by omega)
    have h3 := htw.read 3 (by omega)
    have hd := htw.span_eq (lo := 4) (n := s.n) (by omega)
    have hsum' : t.buf.read (4 + t.n) = checksumFn (t.buf.span 2 (2 + t.n)) := by
      rw [hn, ← htw.read _ (by omega), htw.span_eq (by omega), hsum]
    have hmove' := RxMove.publish (hst'.trans hst) hsum'
    rw [← h2, ← h3, hn, hd] at hmove'
    exact ⟨_, hmove', (((htw.stored _ hwf).publish _ _ _).setState _).sameToCaller fun _ => ⟨rfl, rfl⟩,
      ⟨_, rfl, rfl⟩, [], by simp, by simp⟩
  | mismatch hst hsum =>
    have htw := h.twins_of_frame (by simp [hst]) (by simp [hst])
    obtain ⟨hcur, hfit⟩ := hinv.spo2_fits hst
    have hn := htw.n_eq (by omega)
    have hsum' : t.buf.read (4 + t.n) ≠ checksumFn (t.buf.span 2 (2 + t.n)) := by
      rwa [hn, ← htw.read _ (by omega), htw.span_eq (by omega)]
    exact ⟨_, .mismatch (hst'.trans hst) hsum',
      .of_same ((((htw.stored _ hwf).traced _ _).setState _).sameToCaller nofun) ⟨rfl, rfl⟩ ⟨rfl, rfl⟩⟩

end

end Sys2Proof.Machine
end

section
/-! PROOF. Runs from two states that no host result tells apart go on alike, and so do runs after RESET and after
power-on (10_state R31, R35; 70_reset R143). -/

namespace Sys2Proof.Machine

/-! ### Agreeing outcomes -/

section
variable {R Q : State → State → Prop} {o p : Host.Outcome State Fault Refusal}

theorem OutcomesAgree.mono (h : OutcomesAgree R o p) (hRQ : ∀ a b, R a b → Q a b) : OutcomesAgree Q o p :=
  match o, p, h with
  | .next a, .next b, h => hRQ a b h
  | .fault _, .fault _, h => h
  | .refused _, .refused _, h => h

theorem OutcomesAgree.andThen {f g : State → Host.Outcome State Fault Refusal} (h : OutcomesAgree R o p)
    (hfg : ∀ a b, R a b → OutcomesAgree Q (f a) (g b)) : OutcomesAgree Q (andThen o f) (andThen p g) :=
  match o, p, h with
  | .next a, .next b, h => hfg a b h
  | .fault _, .fault _, h => h
  | .refused _, .refused _, h => h

end

/-! ### PROCESS_INPUT -/

/-- Twins of which the first meets the invariant, reached from `s` and `t` with the same packets and bytes. -/
def InvGrowth (s t s' t' : State) : Prop := Inv s' ∧ SameGrowth s t s' t'

section
variable {s t s' t' : State}

theorem SameGrowth.refl (h : SameToCaller s t) : SameGrowth s t s t := .of_same h ⟨rfl, rfl⟩ ⟨rfl, rfl⟩

theorem SameGrowth.same (h : SameGrowth s t s' t') : SameToCaller s' t' := h.1

theorem SameToCaller.rxStep (h : SameToCaller s t) (hinv : Inv s) (b : Byte) :
    OutcomesAgree (InvGrowth s t) (rxStep b s) (rxStep b t) := by
  obtain ⟨s', hs', hmove⟩ := hinv.exists_rxStep b
  obtain ⟨t', hmove', hgrowth⟩ := hmove.twin hinv h
  rw [hs', hmove'.rxStep_eq (h.ready hinv)]
  exact ⟨hmove.inv hinv, hgrowth⟩

theorem SameToCaller.received (h : SameToCaller s t) (bs : List Byte) :
    SameToCaller (s.received bs) (t.received bs) := by
  obtain ⟨m, ty, len, tx, pub, tr, rfl⟩ := h.eq_with
  obtain ⟨hwf, _, hread, hpkt⟩ := h
  exact ⟨hwf, rfl, hread, hpkt⟩

theorem SameToCaller.withRxq (h : SameToCaller s t) (q : List Byte) : SameToCaller (s.withRxq q) (t.withRxq q) := by
  obtain ⟨hwf, ht, hread, hpkt⟩ := h
  exact ⟨hwf, congrArg (State.withRxq q) ht, hread, hpkt⟩

theorem SameToCaller.moved (h : SameToCaller s t) : SameToCaller s.moved t.moved := by
  obtain ⟨m, ty, len, tx, pub, tr, rfl⟩ := h.eq_with
  obtain ⟨hwf, _, hread, hpkt⟩ := h
  exact ⟨hwf, rfl, hread, hpkt⟩

theorem SameToCaller.transportMove (h : SameToCaller s t) (hinv : Inv s) :
    OutcomesAgree (InvGrowth s t) (transportMove s) (transportMove t) := by
  obtain ⟨⟨_, harr, hend⟩, _⟩ := h.env_eq
  cases ha : s.arrivals with
  | nil =>
    cases he : s.endless with
    | false =>
      rw [transportMove_of_nil ha he, transportMove_of_nil (harr.trans ha) (hend.trans he)]
      exact ⟨hinv, .refl h⟩
    | true =>
      rw [transportMove_of_endless ha he, transportMove_of_endless (harr.trans ha) (hend.trans he)]
      rfl
  | cons bs rest =>
    rw [transportMove_of_cons ha, transportMove_of_cons (harr.trans ha)]
    obtain ⟨hwf, ht, hread, hpkt⟩ := h.received bs
    exact ⟨hinv, .of_same ⟨hwf, congrArg (fun u : State => { u with arrivals := rest }) ht, hread, hpkt⟩ ⟨rfl, rfl⟩
      ⟨rfl, rfl⟩⟩

/-- Composing what has happened from `s` and `t` with what happens next. -/
theorem OutcomesAgree.after {o p : Host.Outcome State Fault Refusal} (h : SameGrowth s t s' t')
    (hop : OutcomesAgree (InvGrowth s' t') o p) : OutcomesAgree (InvGrowth s t) o p :=
  hop.mono fun _ _ h' => ⟨h'.1, h.trans h'.2⟩

theorem SameToCaller.drain (h : SameToCaller s t) (hinv : Inv s) (k : Nat) :
    OutcomesAgree (InvGrowth s t) (drain k s) (drain k t) := by
  induction k generalizing s t with
  | zero => exact ⟨hinv, .refl h⟩
  | succ k ih =>
    obtain ⟨⟨hrxq, _⟩, _⟩ := h.env_eq
    cases hq : s.rxq with
    | nil =>
      rw [drain_empty hq, drain_empty (hrxq.trans hq)]
      exact ⟨hinv, .refl h⟩
    | cons b rest =>
      rw [drain_cons hq, drain_cons (hrxq.trans hq)]
      have hread : OutcomesAgree (InvGrowth s t) (Machine.rxStep b (s.withRxq rest))
          (Machine.rxStep b (t.withRxq rest)) :=
        (h.withRxq rest).rxStep (show Inv (s.withRxq rest) from hinv) b
      refine hread.andThen fun u v huv => .after huv.2 ?_
      refine (huv.2.same.transportMove huv.1).andThen fun u' v' huv' => .after huv'.2 ?_
      exact ih huv'.2.same huv'.1

/-! ### The host operations -/

/-- The same result to both. -/
theorem SameGrowth.finish {r r' : Result} (h : SameGrowth s t s' t') (hr : r' = r) :
    OutcomesAgree (SameGrowth s t) (finish r s') (finish r' t') := by
  subst hr
  obtain ⟨⟨hwf, ht, hread, hpkt⟩, hgrowth⟩ := h
  exact ⟨⟨hwf, congrArg (State.returns r') ht, hread, hpkt⟩, hgrowth⟩

theorem SameToCaller.finish {r r' : Result} (h : SameToCaller s t) (hr : r' = r) :
    OutcomesAgree (SameGrowth s t) (finish r s) (finish r' t) := (SameGrowth.refl h).finish hr

theorem SameToCaller.exec_processInput (h : SameToCaller s t) (hinv : Inv s) :
    OutcomesAgree (SameGrowth s t) (exec .processInput s) (exec .processInput t) := by
  obtain ⟨⟨hrxq, harr, _⟩, _⟩ := h.env_eq
  have hfuel : t.pendingBytes = s.pendingBytes := by rw [State.pendingBytes, State.pendingBytes, hrxq, harr]
  rw [exec, exec, execProcessInput, execProcessInput, hfuel]
  exact (h.drain hinv _).andThen fun _ _ huv => huv.2.finish rfl

theorem SameToCaller.exec_reset (h : SameToCaller s t) :
    OutcomesAgree (SameGrowth s t) (exec .reset s) (exec .reset t) := by
  obtain ⟨m, ty, len, tx, pub, tr, rfl⟩ := h.eq_with
  obtain ⟨hwf, _⟩ := h
  exact .of_same (Twins.sameToCaller_of_dead (k := 0) ⟨hwf, rfl, nofun⟩ (.inl rfl) rfl) ⟨rfl, rfl⟩ ⟨rfl, rfl⟩

/-- An operation that needs a Packet finds one in both, of the same type and length, or in neither. -/
theorem SameToCaller.needPacket (h : SameToCaller s t) (w : OpWord) {f g : State → Host.Outcome State Fault Refusal}
    (hfg : s.pktValid = true → Twins s.cursor s t → s.pktType = t.pktType → s.pktLen = t.pktLen →
      OutcomesAgree (SameGrowth s t) (f s) (g t)) :
    OutcomesAgree (SameGrowth s t) (andThen (needPacket w s) f) (andThen (needPacket w t) g) := by
  have hv' := h.pktValid_eq
  cases hv : s.pktValid with
  | true =>
    obtain ⟨htw, hty, hlen⟩ := h.twins_of_valid hv
    rw [needPacket_eq_next.mpr ⟨hv, rfl⟩, needPacket_eq_next.mpr ⟨hv'.trans hv, rfl⟩]
    exact hfg hv htw hty hlen
  | false =>
    rw [andThen_needPacket_of_invalid w f hv, andThen_needPacket_of_invalid w g (hv'.trans hv)]
    rfl

/-- The byte read lies in the view of the Packet, below CURSOR. -/
theorem SameToCaller.exec_pktReadData (h : SameToCaller s t) (hinv : Inv s) (i : Byte) :
    OutcomesAgree (SameGrowth s t) (exec (.pktReadData i) s) (exec (.pktReadData i) t) := by
  refine h.needPacket _ fun hv htw hty hlen => ?_
  by_cases hi : s.pktLen.toNat ≤ i.toNat
  · rw [viewIndex_of_ge hi, viewIndex_of_ge (hlen ▸ hi), ← hlen]
    rfl
  · have hfit := hinv.view_fits hv
    have hcur := hinv.cursor_of_valid hv
    rw [viewIndex_eq_next.mpr ⟨not_le.mp hi, rfl⟩, viewIndex_eq_next.mpr ⟨hlen ▸ not_le.mp hi, rfl⟩, andThen_next,
      andThen_next, bufRead_of_lt (by omega), bufRead_of_lt (by rw [h.capacity_eq]; omega), andThen_next, andThen_next]
    exact h.finish (by rw [htw.read _ (by omega)])

theorem SameToCaller.sendFrame (h : SameToCaller s t) (ty : Byte) (data : List Byte) :
    OutcomesAgree (SameGrowth s t) (sendFrame ty data s) (sendFrame ty data t) := by
  have hcap := h.capacity_eq
  cases he : encodeFn checksumFn s.capacity ty data with
  | rejected =>
    rw [sendFrame_of_rejected he, sendFrame_of_rejected (hcap ▸ he)]
    exact h.finish rfl
  | ok frame =>
    rw [sendFrame_of_ok he, sendFrame_of_ok (hcap ▸ he)]
    obtain ⟨m, ty, len, tx, pub, tr, rfl⟩ := h.eq_with
    obtain ⟨hwf, _, hread, hpkt⟩ := h
    exact ⟨⟨hwf, rfl, hread, hpkt⟩, ⟨[], by simp, by simp⟩, [frame], rfl, rfl⟩

theorem SameToCaller.sendGeneral (h : SameToCaller s t) (w : OpWord) (ty len : Byte) (data : List Byte) :
    OutcomesAgree (SameGrowth s t) (sendGeneral w ty len data s) (sendGeneral w ty len data t) := by
  by_cases hlen : data.length = len.toNat
  · rw [sendGeneral_of_length w hlen, sendGeneral_of_length w hlen]
    exact h.sendFrame ty data
  · rw [sendGeneral_of_ne w ty hlen, sendGeneral_of_ne w ty hlen]
    rfl

/-- A host operation does the same to twins, and answers both alike. -/
theorem SameToCaller.exec_host (h : SameToCaller s t) (hinv : Inv s) {i : Instr} (hrow : i.isRxRow = false) :
    OutcomesAgree (SameGrowth s t) (exec i s) (exec i t) := by
  cases i with
  | processInput => exact h.exec_processInput hinv
  | reset => exact h.exec_reset
  | getState => exact h.finish (by rw [h.state_eq])
  | getPacket => exact h.needPacket _ fun _ _ hty hlen => h.finish (by rw [State.hasData, State.hasData, hty, hlen])
  | pktHasData => exact h.needPacket _ fun _ _ _ hlen => h.finish (by rw [State.hasData, State.hasData, hlen])
  | pktReadData i => exact h.exec_pktReadData hinv i
  | sendPacket0 ty => exact h.sendGeneral (opWord 0x6#4 ty) ty 0x00#8 []
  | sendPacket1 ty d => exact h.sendGeneral (opWord 0x7#4 ty) ty 0x01#8 [d]
  | sendPacket => exact h.sendGeneral _ _ _ _
  | checksum => exact h.finish rfl
  | encodeFrame | decodeFrame => exact h.finish (by rw [h.capacity_eq])
  | hasPacket => exact h.finish (by rw [h.pktValid_eq])
  | reservedD | reservedE | reservedF => exact rfl
  | sp1Pre1 | sp1Other | sp2Pre2 | sp2Pre1 | sp2Other | rcStore | rcOverflow | rcEnd | spo1Post1 | spo1Other
  | spo2Post2Ok | spo2Post2Bad | spo2Other | boPre1 | boOther | illegalState => cases hrow

theorem SameToCaller.issue (h : SameToCaller s t) (hinv : Inv s) (c : HostCall) :
    OutcomesAgree (SameGrowth s t) (issue c s) (issue c t) := by
  match hdec : decodeHost c with
  | .ok i =>
    rw [issue_of_ok hdec, issue_of_ok hdec]
    exact h.exec_host hinv (decodeHost_isRxRow hdec)
  | .error (.nonzeroArg w) =>
    rw [issue_of_nonzeroArg hdec, issue_of_nonzeroArg hdec]
    rfl

theorem SameToCaller.move (h : SameToCaller s t) (hinv : Inv s) :
    OutcomesAgree (SameGrowth s t) (move s) (move t) := by
  obtain ⟨_, hscript, _⟩ := h.env_eq
  rw [Machine.move, Machine.move, hscript]
  match s.script with
  | [] => exact .refl h
  | .call c :: _ => exact h.moved.issue (show Inv s.moved from hinv) c
  | .rx bs :: _ => exact .of_same (h.moved.received bs) ⟨rfl, rfl⟩ ⟨rfl, rfl⟩

theorem SameToCaller.step (h : SameToCaller s t) (hinv : Inv s) :
    OutcomesAgree (SameGrowth s t) (step s) (step t) := by
  obtain ⟨_, _, hfault, hrefused, _⟩ := h.env_eq
  rw [Machine.step, Machine.step, moveUnlessMarked, moveUnlessMarked, hfault, hrefused]
  match s.faultMark, s.refusedMark with
  | some _, _ => rfl
  | none, some _ => rfl
  | none, none => exact h.move hinv

end

/-- Settles O58: every rule reads below CURSOR, and the Packet only while it is valid, so that twins stay twins. -/
theorem unreadStateIsUnobservable : Obligations.UnreadStateIsUnobservable :=
  fun _ _ hinv h => h.step hinv

/-! ### What the caller sees -/

section
variable {s t : State}

theorem SameToCaller.seen_eq (h : SameToCaller s t) : t.seen = s.seen := by
  obtain ⟨_, _, _, _, _, _, rfl⟩ := h.eq_with
  rfl

theorem SameToCaller.markFault (h : SameToCaller s t) (f : Fault) : SameToCaller (s.markFault f) (t.markFault f) := by
  obtain ⟨m, ty, len, tx, pub, tr, rfl⟩ := h.eq_with
  obtain ⟨hwf, _, hread, hpkt⟩ := h
  exact ⟨hwf, rfl, hread, hpkt⟩

theorem SameToCaller.markRefused (h : SameToCaller s t) (r : Refusal) :
    SameToCaller (s.markRefused r) (t.markRefused r) := by
  obtain ⟨m, ty, len, tx, pub, tr, rfl⟩ := h.eq_with
  obtain ⟨hwf, _, hread, hpkt⟩ := h
  exact ⟨hwf, rfl, hread, hpkt⟩

/-- Whatever a step ends with, it leaves twins, of which the first meets the invariant. -/
theorem SameToCaller.tick (h : SameToCaller s t) (hinv : Inv s) : Inv (tick s) ∧ SameToCaller (tick s) (tick t) := by
  obtain ⟨_, _, hfault, hrefused, _⟩ := h.env_eq
  have hmark : Unmarked t ↔ Unmarked s := by rw [Unmarked, Unmarked, hfault, hrefused]
  by_cases hs : Unmarked s
  · match hstep : Machine.step s, hstep' : Machine.step t, h.step hinv with
    | .next s', .next t', hnext =>
      rw [tick_of_next hstep, tick_of_next hstep']
      exact ⟨hinv.of_step hstep, hnext.same⟩
    | .fault f, .fault _, rfl =>
      by_cases hf : f = .neverReturns
      · subst hf
        rw [tick_of_neverReturns hstep, tick_of_neverReturns hstep']
        exact ⟨hinv, h⟩
      · rw [tick_of_fault hs hstep hf, tick_of_fault (hmark.mpr hs) hstep' hf]
        exact ⟨hinv, h.moved.markFault f⟩
    | .refused r, .refused _, rfl =>
      rw [tick_of_refused hs hstep, tick_of_refused (hmark.mpr hs) hstep']
      exact ⟨hinv, h.moved.markRefused r⟩
  · rw [tick_of_marked hs, tick_of_marked (mt hmark.mp hs)]
    exact ⟨hinv, h⟩

theorem SameToCaller.observed (h : SameToCaller s t) (hinv : Inv s) (k : Nat) : observed k s = observed k t := by
  induction k generalizing s t with
  | zero => rfl
  | succ k ih =>
    obtain ⟨hinv', h'⟩ := h.tick hinv
    rw [Machine.observed, Machine.observed, h'.seen_eq, ih h' hinv']

end

/-- Settles O59: after RESET the buffer and the Packet are dead, so the state is a twin of the power-on state. -/
theorem resetIsLikePowerOn : Obligations.ResetIsLikePowerOn := by
  intro s t m k hinv hmark hm ht
  have hinv' := hinv.of_exec_reset ht
  obtain rfl := finish_eq_next.mp ht
  obtain ⟨hfault, hrefused⟩ := hmark
  refine SameToCaller.observed (Twins.sameToCaller_of_dead (k := 0) ⟨hm, ?_, nofun⟩ (.inl rfl) rfl) hinv' k
  simp only [State.powerOn, State.returns, hfault, hrefused]

end Sys2Proof.Machine
end
